-- ==== Sys2Proof/Word.lean ====
section
/-! DEFINITION. The words of the machine, and a table of a fixed number of like records.
Words are 32 bits, little-endian, and every address is a word address of 22 bits (00 section 5.1);
part time is 32 bits (00 section 5.2) and a counter of a report cell 16 bits (00 section 5.3). -/
namespace Sys2Proof
abbrev Byte := BitVec 8
abbrev Word := BitVec 32
abbrev Counter := BitVec 16
abbrev PartTime := BitVec 32
abbrev Address := BitVec 22
abbrev ByteEnables := BitVec 4
/-- A fixed number of like records, numbered from 0. -/
structure Table (α : Type) (n : Nat) where
  rows : List α
  size : rows.length = n
deriving DecidableEq, Repr
namespace Table
variable {α : Type} {n : Nat}
/-- The table whose every record is `a`. -/
def replicate (n : Nat) (a : α) : Table α n := ⟨List.replicate n a, List.length_replicate⟩
/-- The record at `i`, or `d` where the table has no record `i`. -/
def getD (t : Table α n) (i : Nat) (d : α) : α := t.rows.getD i d
/-- The table with `f` applied to record `i`, and every other record kept. -/
def modify (t : Table α n) (i : Nat) (f : α → α) : Table α n :=
  ⟨t.rows.modify i f, by rw [List.length_modify]; exact t.size⟩
/-- The table with `a` as record `i`. -/
def set (t : Table α n) (i : Nat) (a : α) : Table α n := t.modify i (fun _ => a)
/-- Apply `f` to every record, with its number. -/
def mapRows (f : Nat → α → α) : Nat → List α → List α
  | _, [] => []
  | k, a :: rest => f k a :: mapRows f (k + 1) rest
theorem length_mapRows (f : Nat → α → α) : ∀ (k : Nat) (l : List α), (mapRows f k l).length = l.length
  | _, [] => rfl
  | k, _ :: rest => congrArg (· + 1) (length_mapRows f (k + 1) rest)
/-- The table with `f` applied to every record and its number. -/
def mapIdx (t : Table α n) (f : Nat → α → α) : Table α n :=
  ⟨mapRows f 0 t.rows, by rw [length_mapRows]; exact t.size⟩
/-- The table of the first `n` items of a list, short lists filled up with `d`. -/
def ofList (n : Nat) (d : α) (l : List α) : Table α n :=
  ⟨(l ++ List.replicate n d).take n, by simp⟩
end Table
end Sys2Proof
end

