-- ==== Sys2Proof/Syntax.lean ====
section
/-! DEFINITION. The events of the part: one constructor of `Instr` for each row of spec/opcode_table.json, with the
operands its rule gives it. Objects are named by their index, a host access by its word address, data and byte
enables, and a device's message by the fields it carries. -/

namespace Sys2Proof

/-- R22: what a bay sensor reports. -/
inductive Presence where
  | empty
  | present
deriving DecidableEq, Repr

/-- R22: why a bay sensor reports. -/
inductive ReportKind where
  | change
  | alive
deriving DecidableEq, Repr

/-- R46: the two detector inputs of a decision point. -/
inductive DetectorInput where
  | a
  | b
deriving DecidableEq, Repr

/-- R82: the two gases. -/
inductive Gas where
  | co
  | no2
deriving DecidableEq, Repr

/-- R103: the three drive lines. -/
inductive DriveLine where
  | a
  | b
  | c
deriving DecidableEq, Repr

/-- R104: the result a drive answer carries. -/
inductive DriveResult where
  | accept
  | refuse (code : Byte)
deriving DecidableEq, Repr

/-- R173: the links that carry FALLBACK's broadcast frames. -/
inductive BroadcastLink where
  | drive (line : DriveLine)
  | lamp
  | bay
deriving DecidableEq, Repr

/-- One event of the part. -/
inductive Instr where
  | resetAssert
  | resetRelease
  | storeReadDone (data : List Byte)
  | storeReadTimeout
  | broadcastTimerExpiry
  | partTimeAdvance
  | holdLapse (bay : Nat)
  | promiseLapse (place : Nat)
  | boostExpiry (string position : Nat)
  | bayReport (address : Nat) (presence : Presence) (fault : Bool) (kind : ReportKind)
  | debounceExpiry (bay : Nat)
  | silenceExpiry (bay : Nat)
  | quietTimerExpiry (zone : Nat)
  | indicatorFrameDone
  | passage (point : Nat) (input : DetectorInput)
  | showTimerExpiry (point : Nat)
  | signRetryTimerExpiry (point : Nat)
  | pollSent
  | pollReply (address : Nat) (co no2 : BitVec 16) (fault : Bool)
  | pollMiss
  | fallHoldExpiry (zone : Nat) (gas : Gas)
  | driveFrameSent (line : DriveLine)
  | driveAnswer (line : DriveLine) (address : Nat) (result : DriveResult)
  | driveWindowExpiry (line : DriveLine)
  | stepDownTimerExpiry (group : Nat)
  | retryTimerExpiry (group : Nat)
  | fanGrantTaken (group : Nat)
  | stringGrantTaken (string : Nat)
  | fadeTimerExpiry (string : Nat)
  | lampFrameSent
  | lampReply (address : Nat) (failed : List Nat)
  | lampWindowExpiry
  | stringRetryTimerExpiry (string : Nat)
  | hostReadCell (address : Address) (enables : ByteEnables)
  | guardedWrite (address : Address) (data : Word) (enables : ByteEnables)
  | modeWrite (address : Address) (data : Word) (enables : ByteEnables)
  | extraAirWrite (address : Address) (data : Word) (enables : ByteEnables)
  | floorWrite (address : Address) (data : Word) (enables : ByteEnables)
  | levelsWrite (address : Address) (data : Word) (enables : ByteEnables)
  | allFullWrite (address : Address) (data : Word) (enables : ByteEnables)
  | noticeReadIndexWrite (address : Address) (data : Word) (enables : ByteEnables)
  | attentionThresholdWrite (address : Address) (data : Word) (enables : ByteEnables)
  | commandStart (address : Address) (data : Word) (enables : ByteEnables)
  | commandAbort (address : Address) (data : Word) (enables : ByteEnables)
  | hostWritePass (address : Address) (data : Word) (enables : ByteEnables)
  | memoryAccessDone
  | injection
  | noticeWordWrite
  | listWordFetch
  | statusWrite
  | listClosingWrite
  | broadcastFrameDone (link : BroadcastLink)
deriving DecidableEq, Repr

end Sys2Proof
end

