-- ==== Sys2Proof/Decode.lean ====
section
/-! DEFINITION. The table gives none of its rows any bits, so no word spells an event. -/

namespace Sys2Proof

/-- spec/opcode_table.json gives bits for no row: every word is spelt by none of them. -/
def decodeTableWord (_nbits _w : Nat) : Option Instr := none

end Sys2Proof
end

