-- ==== Sys2Proof/Config.lean ====
section
/-! DEFINITION. The numbers that the part fixes: pool and queue sizes, link windows and the durations its rules state.
The spec leaves the part no free value of its own, so nothing here is opaque: every order it leaves open is the order
in which the events arrive (assumption 2). -/

namespace Sys2Proof.Config

/-- R1: zone records. -/
def zones : Nat := 32
/-- R20: bay records. -/
def bays : Nat := 1024
/-- R44: decision point records. -/
def points : Nat := 24
/-- R77: sensor records. -/
def sensors : Nat := 64
/-- R94: fan group records. -/
def groups : Nat := 16
/-- R112: string records. -/
def strings : Nat := 48
/-- R112: positions of a string at most. -/
def luminaires : Nat := 64
/-- R143: windows of the image map at most. -/
def windows : Nat := 16
/-- R31: entries of the hold pool. -/
def holdPool : Nat := 128
/-- R47: entries of the promise pool. -/
def promisePool : Nat := 256
/-- R151: entries of the injection queue. -/
def injectionQueue : Nat := 128
/-- R153: the count at which the sweep scans and the drain flag clears. -/
def lowMark : Nat := 32
/-- R154: the count at which the drain flag is set. -/
def drainMark : Nat := 96
/-- R154: host grants in a row before a part claim is granted. -/
def hostRunLimit : Nat := 16
/-- R155: records of notice staging. -/
def staging : Nat := 16
/-- R156: slots of the notice ring. -/
def ringSlots : Nat := 64
/-- R23: silence, in seconds. -/
def silenceSeconds : Nat := 180
/-- R33: remaining time of a hold at which it is nearing, in seconds. -/
def nearingSeconds : Nat := 60
/-- R73: sign retry, in seconds. -/
def signRetrySeconds : Nat := 10
/-- R107: retry of a failed drive command, in seconds. -/
def driveRetrySeconds : Nat := 10
/-- R107: retry of a faulted group, in seconds. -/
def driveFaultSeconds : Nat := 60
/-- R128: retry of an unreachable string, in seconds. -/
def stringRetrySeconds : Nat := 10
/-- R173: the broadcast timer, in seconds. -/
def broadcastSeconds : Nat := 10
/-- R54, R66: the largest number a sign shows. -/
def signNumberMax : Nat := 999
/-- R90: the age a sensor without a usable reading shows, and the largest age. -/
def ageLimit : Nat := 65535
/-- R80: full scale of a CO reading. -/
def coFullScale : Nat := 1000
/-- R80: full scale of an NO2 reading. -/
def no2FullScale : Nat := 250
/-- R121: level times rating that makes one PU. -/
def wattLevelsPerUnit : Nat := 6300
/-- R125: signs served in a row while a string waits. -/
def signRunLimit : Nat := 4
/-- R161: words of a list span beyond the list address. -/
def listSpan : Nat := 3137
/-- R163: operand words of an entry at most. -/
def operandLimit : Nat := 40
/-- R166: the entry index of the last entry of a list. -/
def lastEntryIndex : Nat := 63

end Sys2Proof.Config
end

