-- ==== Sys2Proof/Machine/State.lean ====
section
/-! DEFINITION. The state of the part, block by block, as plain data, and its value right after RESET.
Every piece of state that spec/ names is here; what two names share is stored once (assumption 14). -/

namespace Sys2Proof.Machine

/-! ## Timers -/

/-- Section 5.2: the stated duration of a timer. A fade step lasts 1/rate seconds (R122). -/
inductive Duration where
  | seconds (n : Nat)
  | fraction (rate : Nat)
deriving DecidableEq, Repr

/-- A running timer: the part time of the event that last started or restarted it, and its whole duration
(section 5.2). An absent timer is `none`. -/
structure Timer where
  since : PartTime
  duration : Duration
deriving DecidableEq, Repr

/-! ## Enumerations (R175, section 11.3) -/

/-- R169. -/
inductive PartState where
  | resetting
  | loading
  | service
  | fallback
deriving DecidableEq, Repr

/-- R1, R14. -/
inductive ZoneMode where
  | auto
  | closed
  | dormant
deriving DecidableEq, Repr

/-- R6. -/
inductive Access where
  | isOpen
  | full
  | closed
  | fumeClosed
  | dormant
deriving DecidableEq, Repr

/-- R10 to R12, in the order of depth. -/
inductive Rest where
  | active
  | quiet
  | asleep
deriving DecidableEq, Repr

/-- R13. -/
inductive Wake where
  | none
  | bay
  | promise
  | mode
  | fume
deriving DecidableEq, Repr

/-- R20. -/
inductive BayClass where
  | ordinary
  | charging
  | accessible
  | family
deriving DecidableEq, Repr

/-- R29. -/
inductive BayState where
  | free
  | held
  | occupied
  | unknown
  | outOfService
deriving DecidableEq, Repr

/-- R39. -/
inductive Colour where
  | off
  | green
  | blue
  | amber
  | red
deriving DecidableEq, Repr

/-- R39. -/
inductive Blink where
  | steady
  | slow
  | fast
deriving DecidableEq, Repr

/-- R39: an indicator mode. -/
structure Indicator where
  colour : Colour
  blink : Blink
deriving DecidableEq, Repr

/-- R25: a debounce's direction. -/
inductive Direction where
  | arrive
  | depart
deriving DecidableEq, Repr

/-- R44. -/
inductive Arrow where
  | left
  | right
  | ahead
  | rampUp
  | rampDown
deriving DecidableEq, Repr

/-- R44, R47: what a chain entry names and a promise is made to. -/
inductive Target where
  | zone (z : Nat)
  | point (d : Nat)
deriving DecidableEq, Repr

/-- R44. -/
inductive Policy where
  | ordered
  | weighted
deriving DecidableEq, Repr

/-- R44. -/
inductive PointState where
  | disabled
  | idle
  | showing
  | fullShown
deriving DecidableEq, Repr

/-- R59: a face, with the fields its kind uses. `slow` is the blink: SLOW when true, STEADY when false. -/
inductive Face where
  | blank
  | summary (number : Nat)
  | arrow (arrow : Arrow) (number : Nat) (slow : Bool) (shown : Target)
  | full
deriving DecidableEq, Repr

/-- R59: the kind of a face. CLOSED is never a DP's: it exists only on the lamp link (R173). -/
inductive FaceKind where
  | blank
  | summary
  | arrow
  | full
  | closed
deriving DecidableEq, Repr

/-- R73. -/
inductive SignHealth where
  | ok
  | fault
deriving DecidableEq, Repr

/-- R77. -/
inductive SensorHealth where
  | fresh
  | stale
  | fault
deriving DecidableEq, Repr

/-- R104: the outcome of one line; `none` only as a last answer (R94). -/
inductive LineOutcome where
  | none
  | positive
  | negative (code : Byte)
  | silent
deriving DecidableEq, Repr

/-- R94. -/
inductive CommandState where
  | ready
  | inFlight
  | retryWait
  | fault
deriving DecidableEq, Repr

/-- R128. -/
inductive LinkState where
  | reachable
  | unreachable
deriving DecidableEq, Repr

/-- R143. -/
inductive SectionKind where
  | general
  | zone
  | bay
  | fan
  | string
  | point
  | sensor
  | notice
deriving DecidableEq, Repr

/-- R155. -/
inductive NoticeKind where
  | fumeStage
  | zoneAccess
  | intrusion
  | sensorStale
  | sensorFault
  | sensorBack
  | driveFault
  | driveRecovered
  | bayOut
  | holdTaken
  | holdLapsed
  | promisesRecalled
  | poolEmpty
  | lampFailed
  | stringUnreachable
  | signFault
  | overCap
  | guarded
  | rejected
  | triggerRefused
  | listDone
deriving DecidableEq, Repr

/-- R160. -/
inductive ListResult where
  | none
  | complete
  | stopped
  | aborted
  | limit
  | refusedPlace
deriving DecidableEq, Repr

/-- R164, R176. -/
inductive Reason where
  | range
  | state
  | notFree
  | poolFull
  | loop
  | badCode
  | badOption
  | length
deriving DecidableEq, Repr

/-! ## Small fixed families -/

/-- One value for each bay class. -/
structure PerClass (α : Type) where
  ordinary : α
  charging : α
  accessible : α
  family : α
deriving DecidableEq, Repr

/-- One value for each drive line. -/
structure PerLine (α : Type) where
  a : α
  b : α
  c : α
deriving DecidableEq, Repr

/-- R78: the rise marks U1 to U4 and fall marks L1 to L4 of one gas in one zone. -/
structure Marks where
  u1 : Nat
  u2 : Nat
  u3 : Nat
  u4 : Nat
  l1 : Nat
  l2 : Nat
  l3 : Nat
  l4 : Nat
deriving DecidableEq, Repr

/-! ## The configuration in force (R2, R21, R45, R78, R95, R114, R143) -/

/-- R143: one window of the image map. -/
structure Window where
  base : Nat
  blocks : Nat
  kind : SectionKind
  first : Nat
deriving DecidableEq, Repr

/-- R1, R78, R94: what the store gives a zone. ZONE PACING, ZONE MARKS and STAGE MAP change it in SERVICE. -/
structure ZoneConfig where
  quietTime : Nat
  promiseLimit : Nat
  spacing : Nat
  promiseLifetime : Nat
  coMarks : Marks
  no2Marks : Marks
  fallHold : Nat
  blindStage : Nat
  stageMap : Table Nat 5
deriving DecidableEq, Repr

/-- R20: what the store gives a bay. BAY CLASS changes the class in SERVICE. -/
structure BayConfig where
  zone : Nat
  cls : BayClass
  sensorAddress : Nat
  indicatorAddress : Nat
  luminaire : Option (Nat × Nat)
deriving DecidableEq, Repr

/-- R77. -/
structure SensorConfig where
  zone : Nat
  airAddress : Nat
deriving DecidableEq, Repr

/-- R94. -/
structure GroupConfig where
  driveAddress : Nat
  lines : List DriveLine
  served : List Nat
  power : Table Nat 7
  baseActive : Nat
  baseQuiet : Nat
  baseAsleep : Nat
  stepDown : Nat
deriving DecidableEq, Repr

/-- R112. SCENE changes the fade rate in SERVICE. -/
structure StringConfig where
  lampAddress : Nat
  zone : Nat
  count : Nat
  reversed : Bool
  rating : Nat
  safety : Nat
  economy : Nat
  boostLevel : Nat
  boostTime : Nat
  fadeRate : Nat
deriving DecidableEq, Repr

/-- R114: one copy rule. -/
structure CopyRule where
  source : Nat
  first : Nat
  last : Nat
  dest : Nat
  start : Nat
deriving DecidableEq, Repr

/-- R44. -/
structure ChainEntry where
  target : Target
  arrow : Arrow
deriving DecidableEq, Repr

/-- R44. CHAIN and WEIGHTS change the policy, chain and weight table in SERVICE. `inputB` is absent for UNUSED,
and an EMPTY phase is absent. -/
structure PointConfig where
  signAddress : Nat
  inputB : Option BayClass
  policy : Policy
  chain : List ChainEntry
  weights : Table (Option Nat) 32
  showTime : Nat
  transitLifetime : Nat
  transitLimit : Nat
  enabled : Bool
deriving DecidableEq, Repr

/-- The configuration: the configured objects, first to last, and the image map. Outside SERVICE it is `Plant.empty`. -/
structure Plant where
  memorySize : Nat
  windows : List Window
  zones : List ZoneConfig
  arriveDebounce : Nat
  departDebounce : Nat
  bays : List BayConfig
  sensors : List SensorConfig
  groups : List GroupConfig
  strings : List StringConfig
  copies : List CopyRule
  points : List PointConfig
  storeCap : Nat
deriving DecidableEq, Repr

/-! ## Zone Table -/

/-- R1: one zone record. -/
structure Zone where
  mode : ZoneMode
  extraAir : Nat
  free : PerClass Nat
  held : Nat
  occupied : Nat
  unknown : Nat
  outOfService : Nat
  lastPromise : PartTime
  paced : Counter
  unpromised : Counter
  lapsed : Counter
  recalled : Counter
  withdrawn : Counter
  fume : Nat
  access : Access
  rest : Rest
  wake : Wake
  quiet : Option Timer
deriving DecidableEq, Repr

/-! ## Bay Table -/

/-- R25: a running debounce. -/
structure Debounce where
  direction : Direction
  timer : Timer
deriving DecidableEq, Repr

/-- R20: one bay record. The hold stands in the hold pool and the pending mark on the bay link. -/
structure Bay where
  live : Bool
  silence : Option Timer
  occupied : Bool
  debounce : Option Debounce
  reasonSensor : Bool
  reasonOperator : Bool
  state : BayState
  indicator : Indicator
deriving DecidableEq, Repr

/-- R31: one hold record. -/
structure Hold where
  bay : Nat
  expiry : PartTime
  nearing : Bool
deriving DecidableEq, Repr

/-- R40, R173: a frame on the outbound side of the bay link. A broadcast is no bay's. -/
inductive BayFrame where
  | indicator (bay : Nat) (address : Nat) (mode : Indicator)
  | broadcast (address : Nat) (mode : Indicator)
deriving DecidableEq, Repr

/-- R40: the outbound side of the bay link. -/
structure BayLink where
  frame : Option BayFrame
  last : Nat
  pending : Table Bool 1024
  newer : Bool
deriving DecidableEq, Repr

/-! ## Guidance Unit -/

/-- R44: one decision point record. The sign pending mark stands on the lamp link (R129). -/
structure Point where
  state : PointState
  pointer : Nat
  showTimer : Option Timer
  face : Face
  health : SignHealth
  misses : Nat
  retryTimer : Option Timer
  passages : Counter
  turnedAway : Counter
  poolEmpty : Counter
deriving DecidableEq, Repr

/-- R47: one promise. -/
structure Promise where
  target : Target
  cls : BayClass
  expiry : PartTime
deriving DecidableEq, Repr

/-! ## Air Unit -/

/-- R77: one sensor record. `ageStopped` says that its age stands at 65,535 since its last valid reply (R90). -/
structure Sensor where
  health : SensorHealth
  misses : Nat
  co : Option Nat
  no2 : Option Nat
  lastValid : Option PartTime
  ageStopped : Bool
deriving DecidableEq, Repr

/-- R82, R83, R87: the gas state of one zone. -/
structure ZoneGas where
  coValue : Option Nat
  no2Value : Option Nat
  coStage : Nat
  no2Stage : Nat
  coTimer : Option Timer
  no2Timer : Option Timer
  blind : Bool
deriving DecidableEq, Repr

/-- R79: the poll in flight; the answer window opens when the frame has been sent. -/
structure Poll where
  sensor : Nat
  windowOpen : Bool
deriving DecidableEq, Repr

/-! ## Drive Unit -/

/-- R103: a current command; an outcome that is absent is PENDING. -/
structure Command where
  stage : Nat
  outcomes : PerLine (Option LineOutcome)
deriving DecidableEq, Repr

/-- R94: one fan group record. -/
structure Group where
  floor : Nat
  p : Nat
  q : Nat
  g : Nat
  t : Nat
  k : Nat
  stepTimer : Option Timer
  state : CommandState
  faulted : Bool
  retryTimer : Option Timer
  resend : Bool
  command : Option Command
  answers : PerLine LineOutcome
  failureCount : Nat
  failedCommands : Counter
deriving DecidableEq, Repr

/-- R104, R173: what a drive line is doing. A broadcast is no group's command. -/
inductive LineActivity where
  | idle
  | sending (group stage : Nat)
  | window (group : Nat)
  | broadcast (address stage : Nat)
deriving DecidableEq, Repr

/-- R103, R104: one drive line. -/
structure LineRecord where
  queue : List Nat
  activity : LineActivity
  newer : Bool
deriving DecidableEq, Repr

/-! ## Light Unit -/

/-- R113: one position of the luminaire image. -/
structure Luminaire where
  boost : Option PartTime
  unbudgeted : Nat
  target : Nat
  output : Nat
deriving DecidableEq, Repr

/-- R112: one string record, with its LEVELS demand copies (`levels`) and its luminaire image. -/
structure LampString where
  levels : Table Nat 64
  rest : Rest
  evacuation : Bool
  override : Bool
  fadeTimer : Option Timer
  link : LinkState
  misses : Nat
  retryTimer : Option Timer
  failed : List Nat
  grant : Bool
  luminaires : Table Luminaire 64
deriving DecidableEq, Repr

/-- R72, R126, R173: a frame on the lamp link. A broadcast is no DP's and no string's. -/
inductive LampFrame where
  | sign (point : Nat) (address : Nat) (face : Face)
  | string (string : Nat) (address : Nat) (levels : List Nat)
  | broadcastString (address : Nat) (levels : List Nat)
  | broadcastSign (address : Nat) (kind : FaceKind)
deriving DecidableEq, Repr

/-- R124, R125: the lamp link. `windowOpen` says that the frame has been sent and its answer window is open. -/
structure LampLink where
  frame : Option LampFrame
  windowOpen : Bool
  signRun : Nat
  lastSign : Nat
  lastString : Nat
  signPending : Table Bool 24
  stringPending : Table Bool 48
  newer : Bool
deriving DecidableEq, Repr

/-! ## Supply Budget -/

/-- R133: what the Budget records of a fan group. -/
structure GroupClaim where
  p : Nat
  q : Nat
  prot : Nat
  disc : Nat
  g : Nat
deriving DecidableEq, Repr

/-- R133: what the Budget records of a string. -/
structure StringClaim where
  prot : Nat
  disc : Nat
  grant : Bool
deriving DecidableEq, Repr

/-- R133. -/
structure Budget where
  cap : Nat
  groups : Table GroupClaim 16
  strings : Table StringClaim 48
  overCap : Bool
  protectedPower : Nat
  grantedPower : Nat
deriving DecidableEq, Repr

/-! ## Memory Path -/

/-- The SRAM behind the memory port: (byte address, byte) pairs. -/
abbrev Memory := List Host.Cell

/-- One cell by its section, object and position (R144). -/
structure CellRef where
  kind : SectionKind
  object : Nat
  position : Nat
deriving DecidableEq, Repr

/-- R154: the claims the part makes on the memory port. -/
inductive PartClaim where
  | status
  | notice
  | injection
  | fetch
deriving DecidableEq, Repr

/-- R142: a host access. A write carries its data. A plain access passes to memory whatever cell its address has
(R169). -/
structure HostAccess where
  address : Address
  data : Option Word
  enables : ByteEnables
  plain : Bool
deriving DecidableEq, Repr

/-- R142: an access presented on the memory port. -/
structure PortAccess where
  address : Nat
  data : Option Word
  enables : ByteEnables
deriving DecidableEq, Repr

/-- R142, R154: the memory port. -/
inductive Port where
  | free
  | granted (claim : PartClaim)
  | busy (access : PortAccess)
deriving DecidableEq, Repr

/-- The word the host port last returned (R146). -/
structure HostAnswer where
  address : Address
  word : Word
  fresh : Bool
deriving DecidableEq, Repr

/-- R151 to R154: marks, queue, sweep, arbiter and ports. The queued mark of a cell is its presence in the queue. -/
structure MemoryPath where
  dirty : List Nat
  queue : List Nat
  sweep : Option Nat
  drain : Bool
  hostRun : Nat
  port : Port
  hostWaiting : Option HostAccess
  hostAnswer : Option HostAnswer
deriving DecidableEq, Repr

/-- R155: one notice record. -/
structure Notice where
  kind : NoticeKind
  severity : Nat
  object : Option Nat
  detail : Word
  time : PartTime
deriving DecidableEq, Repr

/-- R149, R155 to R157: notices, ring and ATTN, and the Memory Path's counters. -/
structure Notices where
  staging : List Notice
  nextWord : Nat
  writeIndex : BitVec 16
  readIndex : BitVec 16
  severities : Table (Option Nat) 64
  threshold : Nat
  lost : Counter
  guarded : Counter
  rejected : Counter
  attn : Bool
deriving DecidableEq, Repr

/-! ## List Runner -/

/-- R164 to R166: what the runner keeps of the entry whose status is due. -/
structure EntryOutcome where
  refusal : Option Reason
  isEnd : Bool
  silent : Bool
  continues : Bool
  length : Nat
deriving DecidableEq, Repr

/-- R160, R163, R165, R166: where the runner stands. It is IDLE in `idle` and RUNNING otherwise. -/
inductive Phase where
  | idle
  | fetching (words : List Word)
  | statusDue (outcome : EntryOutcome)
  | closingDue (result : ListResult) (address : Nat) (status : Word)
deriving DecidableEq, Repr

/-- R160. -/
structure Runner where
  phase : Phase
  entryIndex : Nat
  entryAddress : Nat
  abort : Bool
  entriesDone : Nat
  result : ListResult
  refusals : Counter
deriving DecidableEq, Repr

/-! ## Start-up Loader -/

/-- R169, R170, R173: the part as a whole. -/
structure Loader where
  partState : PartState
  partTime : PartTime
  storeBytes : List Byte
  storeCrc : Word
  storeReading : Bool
  broadcastTimer : Option Timer
deriving DecidableEq, Repr

/-! ## The state -/

/-- The part. -/
structure State where
  pending : List Instr
  loader : Loader
  plant : Plant
  zones : Table Zone 32
  bays : Table Bay 1024
  holds : List Hold
  stray : Counter
  bayLink : BayLink
  points : Table Point 24
  pool : List Promise
  sensors : Table Sensor 64
  gas : Table ZoneGas 32
  airLink : Option Poll
  groups : Table Group 16
  lines : PerLine LineRecord
  strings : Table LampString 48
  allFull : Nat
  lampLink : LampLink
  budget : Budget
  path : MemoryPath
  notices : Notices
  runner : Runner
  mem : Memory
deriving DecidableEq, Repr

/-- No event of the spec stops the part (INVENTORY.md, Faults): a bad input is discarded, counted, suppressed, refused
in a status word or leads to FALLBACK. -/
inductive Fault where
deriving DecidableEq, Repr

/-- Why a step is refused. -/
inductive Refusal where
  /-- Raised by an arm of `exec` that has no meaning yet; safe, since the machine stops. No arm raises it. -/
  | notModelled (mnemonic : String)
deriving DecidableEq, Repr

/-! ## Reset values (R18, R42, R76, R92, R111, R131, R141, R158, R160, R169) -/

/-- No configuration is in force (R18, R42, R76, R92, R111, R131, R158). -/
def Plant.empty : Plant where
  memorySize := 0
  windows := []
  zones := []
  arriveDebounce := 0
  departDebounce := 0
  bays := []
  sensors := []
  groups := []
  strings := []
  copies := []
  points := []
  storeCap := 0

/-- R18. -/
def Zone.reset : Zone where
  mode := .auto
  extraAir := 0
  free := ⟨0, 0, 0, 0⟩
  held := 0
  occupied := 0
  unknown := 0
  outOfService := 0
  lastPromise := 0
  paced := 0
  unpromised := 0
  lapsed := 0
  recalled := 0
  withdrawn := 0
  fume := 0
  access := .full
  rest := .active
  wake := .none
  quiet := .none

/-- R42. -/
def Bay.reset : Bay where
  live := false
  silence := none
  occupied := false
  debounce := none
  reasonSensor := false
  reasonOperator := false
  state := .unknown
  indicator := ⟨.off, .steady⟩

/-- R42. -/
def BayLink.reset : BayLink where
  frame := none
  last := 0
  pending := Table.replicate 1024 false
  newer := false

/-- R76. -/
def Point.reset : Point where
  state := .disabled
  pointer := 0
  showTimer := none
  face := .blank
  health := .ok
  misses := 0
  retryTimer := none
  passages := 0
  turnedAway := 0
  poolEmpty := 0

/-- R92; without a last valid time the age is 65,535 (R90). -/
def Sensor.reset : Sensor where
  health := .stale
  misses := 3
  co := none
  no2 := none
  lastValid := none
  ageStopped := true

/-- R92. -/
def ZoneGas.reset : ZoneGas where
  coValue := none
  no2Value := none
  coStage := 0
  no2Stage := 0
  coTimer := none
  no2Timer := none
  blind := true

/-- R111. -/
def Group.reset : Group where
  floor := 0
  p := 0
  q := 0
  g := 0
  t := 0
  k := 0
  stepTimer := none
  state := .ready
  faulted := false
  retryTimer := none
  resend := false
  command := none
  answers := ⟨.none, .none, .none⟩
  failureCount := 0
  failedCommands := 0

/-- R111. -/
def LineRecord.reset : LineRecord where
  queue := []
  activity := .idle
  newer := false

/-- R131. -/
def Luminaire.reset : Luminaire where
  boost := none
  unbudgeted := 0
  target := 0
  output := 0

/-- R131. -/
def LampString.reset : LampString where
  levels := Table.replicate 64 0
  rest := .active
  evacuation := false
  override := false
  fadeTimer := none
  link := .reachable
  misses := 0
  retryTimer := none
  failed := []
  grant := false
  luminaires := Table.replicate 64 Luminaire.reset

/-- R131. -/
def LampLink.reset : LampLink where
  frame := none
  windowOpen := false
  signRun := 0
  lastSign := 0
  lastString := 0
  signPending := Table.replicate 24 false
  stringPending := Table.replicate 48 false
  newer := false

/-- R141. -/
def Budget.reset : Budget where
  cap := 0
  groups := Table.replicate 16 ⟨0, 0, 0, 0, 0⟩
  strings := Table.replicate 48 ⟨0, 0, false⟩
  overCap := false
  protectedPower := 0
  grantedPower := 0

/-- R158. -/
def MemoryPath.reset : MemoryPath where
  dirty := []
  queue := []
  sweep := none
  drain := false
  hostRun := 0
  port := .free
  hostWaiting := none
  hostAnswer := none

/-- R158. -/
def Notices.reset : Notices where
  staging := []
  nextWord := 0
  writeIndex := 0
  readIndex := 0
  severities := Table.replicate 64 none
  threshold := 0
  lost := 0
  guarded := 0
  rejected := 0
  attn := false

/-- R160. -/
def Runner.reset : Runner where
  phase := .idle
  entryIndex := 0
  entryAddress := 0
  abort := false
  entriesDone := 0
  result := .none
  refusals := 0

/-- R169, R177: RESETTING, part time 0, no store byte read. -/
def Loader.reset : Loader where
  partState := .resetting
  partTime := 0
  storeBytes := []
  storeCrc := 0xFFFFFFFF
  storeReading := false
  broadcastTimer := none

/-- The part while RESET is asserted, with nothing in memory and no event waiting. -/
def State.reset : State where
  pending := []
  loader := Loader.reset
  plant := Plant.empty
  zones := Table.replicate 32 Zone.reset
  bays := Table.replicate 1024 Bay.reset
  holds := []
  stray := 0
  bayLink := BayLink.reset
  points := Table.replicate 24 Point.reset
  pool := []
  sensors := Table.replicate 64 Sensor.reset
  gas := Table.replicate 32 ZoneGas.reset
  airLink := none
  groups := Table.replicate 16 Group.reset
  lines := ⟨LineRecord.reset, LineRecord.reset, LineRecord.reset⟩
  strings := Table.replicate 48 LampString.reset
  allFull := 0
  lampLink := LampLink.reset
  budget := Budget.reset
  path := MemoryPath.reset
  notices := Notices.reset
  runner := Runner.reset
  mem := []

end Sys2Proof.Machine
end

