-- ==== Sys2Proof/Machine/Ops.lean ====
section
/-! DEFINITION. The named operations over memory, tables, timers, marks and notices that every event uses, and `Ev`,
an event while it is handled: the state so far, the cells it has marked, and the claimants and strings whose part the
end of the event composes. -/

namespace Sys2Proof.Machine

/-! ## Memory (00 section 5.1: little-endian, byte enables per byte) -/

/-- What a byte that nothing has written reads as (assumption 8, DESIGN CHOICE). -/
def Memory.unlisted : Byte := 0

/-- The byte at a byte address. -/
def Memory.readByte : Memory → Nat → Byte
  | [], _ => Memory.unlisted
  | (a, v) :: rest, k => if a = k then v else if k < a then Memory.unlisted else Memory.readByte rest k

/-- Write one byte and keep the canonical form: addresses strictly rising, no entry equal to `unlisted`. -/
def Memory.writeByte : Memory → Nat → Byte → Memory
  | [], k, v => if v = Memory.unlisted then [] else [(k, v)]
  | (a, w) :: rest, k, v =>
    if a = k then (if v = Memory.unlisted then rest else (k, v) :: rest)
    else if k < a then (if v = Memory.unlisted then (a, w) :: rest else (k, v) :: (a, w) :: rest)
    else (a, w) :: Memory.writeByte rest k v

/-- Every address of `m` is above `k`, and `m` is in canonical form. -/
def Memory.wfAbove : Option Nat → Memory → Bool
  | _, [] => true
  | none, (a, v) :: rest => v != Memory.unlisted && Memory.wfAbove (some a) rest
  | some k, (a, v) :: rest => decide (k < a) && v != Memory.unlisted && Memory.wfAbove (some a) rest

/-- The canonical form of memory. -/
def Memory.wf (m : Memory) : Bool := Memory.wfAbove none m

/-- Byte `i` of a word (00 section 5.1). -/
def byteOf (w : Word) (i : Nat) : Byte := BitVec.ofNat 8 (w.toNat / 256 ^ i)

/-- The word of four bytes, byte 0 first. -/
def wordOf (b0 b1 b2 b3 : Byte) : Word :=
  BitVec.ofNat 32 (b0.toNat + 256 * b1.toNat + 65536 * b2.toNat + 16777216 * b3.toNat)

/-- The word at a word address. -/
def Memory.readWord (m : Memory) (a : Nat) : Word :=
  wordOf (m.readByte (4 * a)) (m.readByte (4 * a + 1)) (m.readByte (4 * a + 2)) (m.readByte (4 * a + 3))

/-- Write byte `i` of `w` at word address `a` where the byte is enabled. -/
def Memory.writeLane (m : Memory) (a : Nat) (w : Word) (e : ByteEnables) (i : Nat) : Memory :=
  if e.getLsbD i then m.writeByte (4 * a + i) (byteOf w i) else m

/-- Write the enabled bytes of a word at a word address (R142). -/
def Memory.writeWord (m : Memory) (a : Nat) (w : Word) (e : ByteEnables) : Memory :=
  (((m.writeLane a w e 0).writeLane a w e 1).writeLane a w e 2).writeLane a w e 3

/-- All four byte enables. -/
def allBytes : ByteEnables := 15

/-- R148: the enabled bytes of `w` over `base`. -/
def mergeBytes (base w : Word) (e : ByteEnables) : Word :=
  let lane := fun i => if e.getLsbD i then byteOf w i else byteOf base i
  wordOf (lane 0) (lane 1) (lane 2) (lane 3)

/-! ## Small families -/

namespace PerClass
variable {α : Type}

def get (p : PerClass α) : BayClass → α
  | .ordinary => p.ordinary
  | .charging => p.charging
  | .accessible => p.accessible
  | .family => p.family

def set (p : PerClass α) (c : BayClass) (a : α) : PerClass α :=
  match c with
  | .ordinary => { p with ordinary := a }
  | .charging => { p with charging := a }
  | .accessible => { p with accessible := a }
  | .family => { p with family := a }

end PerClass

namespace PerLine
variable {α : Type}

def get (p : PerLine α) : DriveLine → α
  | .a => p.a
  | .b => p.b
  | .c => p.c

def set (p : PerLine α) (l : DriveLine) (v : α) : PerLine α :=
  match l with
  | .a => { p with a := v }
  | .b => { p with b := v }
  | .c => { p with c := v }

end PerLine

/-- The four bay classes, in the order of their codes. -/
def allClasses : List BayClass := [.ordinary, .charging, .accessible, .family]

/-- The three drive lines. -/
def allLines : List DriveLine := [.a, .b, .c]

/-! ## Accessors -/

namespace State

def inService (s : State) : Bool := s.loader.partState == .service
def partTime (s : State) : PartTime := s.loader.partTime

def zoneCount (s : State) : Nat := s.plant.zones.length
def bayCount (s : State) : Nat := s.plant.bays.length
def sensorCount (s : State) : Nat := s.plant.sensors.length
def groupCount (s : State) : Nat := s.plant.groups.length
def stringCount (s : State) : Nat := s.plant.strings.length
def pointCount (s : State) : Nat := s.plant.points.length

def zone (s : State) (z : Nat) : Zone := s.zones.getD z Zone.reset
def bay (s : State) (b : Nat) : Bay := s.bays.getD b Bay.reset
def point (s : State) (d : Nat) : Point := s.points.getD d Point.reset
def sensor (s : State) (n : Nat) : Sensor := s.sensors.getD n Sensor.reset
def zoneGas (s : State) (z : Nat) : ZoneGas := s.gas.getD z ZoneGas.reset
def group (s : State) (g : Nat) : Group := s.groups.getD g Group.reset
def lampString (s : State) (k : Nat) : LampString := s.strings.getD k LampString.reset
def line (s : State) (l : DriveLine) : LineRecord := s.lines.get l

/-- The configuration of zone `z`; a zone that is not configured has none, shown as zeros. -/
def zoneConfig (s : State) (z : Nat) : ZoneConfig :=
  s.plant.zones.getD z
    ⟨0, 0, 0, 0, ⟨0, 0, 0, 0, 0, 0, 0, 0⟩, ⟨0, 0, 0, 0, 0, 0, 0, 0⟩, 0, 0, Table.replicate 5 0⟩
def bayConfig (s : State) (b : Nat) : BayConfig := s.plant.bays.getD b ⟨0, .ordinary, 0, 0, none⟩
def sensorConfig (s : State) (n : Nat) : SensorConfig := s.plant.sensors.getD n ⟨0, 0⟩
def groupConfig (s : State) (g : Nat) : GroupConfig :=
  s.plant.groups.getD g ⟨0, [], [], Table.replicate 7 0, 0, 0, 0, 0⟩
def stringConfig (s : State) (k : Nat) : StringConfig :=
  s.plant.strings.getD k ⟨0, 0, 0, false, 0, 0, 0, 0, 0, 0⟩
def pointConfig (s : State) (d : Nat) : PointConfig :=
  s.plant.points.getD d ⟨0, none, .ordered, [], Table.replicate 32 none, 0, 0, 0, false⟩

/-- R31: the hold of bay `b`, if it carries one. -/
def hold (s : State) (b : Nat) : Option Hold := s.holds.find? (fun h => h.bay == b)

def indicatorPending (s : State) (b : Nat) : Bool := s.bayLink.pending.getD b false
def signPending (s : State) (d : Nat) : Bool := s.lampLink.signPending.getD d false
def stringPending (s : State) (k : Nat) : Bool := s.lampLink.stringPending.getD k false
def groupClaim (s : State) (g : Nat) : GroupClaim := s.budget.groups.getD g ⟨0, 0, 0, 0, 0⟩
def stringClaim (s : State) (k : Nat) : StringClaim := s.budget.strings.getD k ⟨0, 0, false⟩

/-- The bays of zone `z` (R2). -/
def baysOf (s : State) (z : Nat) : List Nat :=
  (List.range s.bayCount).filter (fun b => (s.bayConfig b).zone == z)

/-- The sensors of zone `z` (R2). -/
def sensorsOf (s : State) (z : Nat) : List Nat :=
  (List.range s.sensorCount).filter (fun n => (s.sensorConfig n).zone == z)

/-- The strings of zone `z` (R2). -/
def stringsOf (s : State) (z : Nat) : List Nat :=
  (List.range s.stringCount).filter (fun k => (s.stringConfig k).zone == z)

/-- The serving groups of zone `z` (R2). -/
def servingGroups (s : State) (z : Nat) : List Nat :=
  (List.range s.groupCount).filter (fun g => (s.groupConfig g).served.contains z)

/-- A timer started now (section 5.2). -/
def startTimer (s : State) (d : Duration) : Option Timer := some ⟨s.partTime, d⟩

/-- R33, R34, R64, R119: part time has reached `expiry`, counted modulo 2^32 (assumption 3). -/
def reached (s : State) (expiry : PartTime) : Bool := (s.partTime - expiry).toNat < 2147483648

/-- Part time `n` seconds from now. -/
def after (s : State) (n : Nat) : PartTime := s.partTime + BitVec.ofNat 32 n

end State

/-! ## An event while it is handled -/

/-- The state so far; the cells marked dirty in this event (R151); the strings whose targets are to be recomposed
(R118) and the groups that have handed claims (R100), both of which the end of the event takes together (R136); and
whether a grant pass is due whatever the claims (R139). -/
structure Ev where
  s : State
  marks : List CellRef
  strings : List Nat
  groups : List Nat
  pass : Bool

namespace Ev

/-- An event that has done nothing yet. -/
def start (s : State) : Ev := ⟨s, [], [], [], false⟩

def modify (e : Ev) (f : State → State) : Ev := { e with s := f e.s }

def modifyZone (e : Ev) (z : Nat) (f : Zone → Zone) : Ev :=
  { e with s := { e.s with zones := e.s.zones.modify z f } }
def modifyBay (e : Ev) (b : Nat) (f : Bay → Bay) : Ev :=
  { e with s := { e.s with bays := e.s.bays.modify b f } }
def modifyPoint (e : Ev) (d : Nat) (f : Point → Point) : Ev :=
  { e with s := { e.s with points := e.s.points.modify d f } }
def modifySensor (e : Ev) (n : Nat) (f : Sensor → Sensor) : Ev :=
  { e with s := { e.s with sensors := e.s.sensors.modify n f } }
def modifyGas (e : Ev) (z : Nat) (f : ZoneGas → ZoneGas) : Ev :=
  { e with s := { e.s with gas := e.s.gas.modify z f } }
def modifyGroup (e : Ev) (g : Nat) (f : Group → Group) : Ev :=
  { e with s := { e.s with groups := e.s.groups.modify g f } }
def modifyString (e : Ev) (k : Nat) (f : LampString → LampString) : Ev :=
  { e with s := { e.s with strings := e.s.strings.modify k f } }
def modifyLine (e : Ev) (l : DriveLine) (f : LineRecord → LineRecord) : Ev :=
  { e with s := { e.s with lines := e.s.lines.set l (f (e.s.lines.get l)) } }
def modifyBudget (e : Ev) (f : Budget → Budget) : Ev :=
  { e with s := { e.s with budget := f e.s.budget } }
def modifyPath (e : Ev) (f : MemoryPath → MemoryPath) : Ev :=
  { e with s := { e.s with path := f e.s.path } }
def modifyNotices (e : Ev) (f : Notices → Notices) : Ev :=
  { e with s := { e.s with notices := f e.s.notices } }
def modifyRunner (e : Ev) (f : Runner → Runner) : Ev :=
  { e with s := { e.s with runner := f e.s.runner } }
def modifyLamp (e : Ev) (f : LampLink → LampLink) : Ev :=
  { e with s := { e.s with lampLink := f e.s.lampLink } }
def modifyBayLink (e : Ev) (f : BayLink → BayLink) : Ev :=
  { e with s := { e.s with bayLink := f e.s.bayLink } }
def modifyLoader (e : Ev) (f : Loader → Loader) : Ev :=
  { e with s := { e.s with loader := f e.s.loader } }
def modifyPlant (e : Ev) (f : Plant → Plant) : Ev :=
  { e with s := { e.s with plant := f e.s.plant } }

/-- R151: mark a cell dirty. The mark and the queue entry are made with the event's other marks, in image order. -/
def mark (e : Ev) (kind : SectionKind) (object position : Nat) : Ev :=
  { e with marks := ⟨kind, object, position⟩ :: e.marks }

/-- Mark a cell of the GENERAL section. -/
def markGeneral (e : Ev) (position : Nat) : Ev := e.mark .general 0 position

/-- Mark several positions of one object. -/
def markAll (e : Ev) (kind : SectionKind) (object : Nat) (positions : List Nat) : Ev :=
  { e with marks := positions.map (fun p => ⟨kind, object, p⟩) ++ e.marks }

/-- Do `f` for each item in order, as one part of the event. -/
def forEach {α : Type} (e : Ev) (items : List α) (f : Ev → α → Ev) : Ev := items.foldl f e

/-- R155: post a notice. A record posted while staging is full is lost and counted. -/
def post (e : Ev) (kind : NoticeKind) (severity : Nat) (object : Option Nat) (detail : Word) : Ev :=
  if e.s.notices.staging.length < Config.staging then
    e.modifyNotices fun n =>
      { n with staging := n.staging ++ [⟨kind, severity, object, detail, e.s.partTime⟩] }
  else
    (e.modifyNotices fun n => { n with lost := n.lost + 1 }).markGeneral 8

/-- R118: the string's targets are recomposed at the end of the event. -/
def touchString (e : Ev) (k : Nat) : Ev := { e with strings := k :: e.strings }

/-- R129: set a sign's pending mark. -/
def setSignPending (e : Ev) (d : Nat) : Ev :=
  e.modifyLamp fun l => { l with signPending := l.signPending.set d true }

/-- R124: set a string's pending mark. -/
def setStringPending (e : Ev) (k : Nat) : Ev :=
  e.modifyLamp fun l => { l with stringPending := l.stringPending.set k true }

/-- R40: set a bay's indicator pending mark. -/
def setIndicatorPending (e : Ev) (b : Nat) : Ev :=
  e.modifyBayLink fun l => { l with pending := l.pending.set b true }

end Ev

/-- The items of `l` as a set in rising order (claimants and cells are taken in index or image order). -/
def insertSorted (x : Nat) : List Nat → List Nat
  | [] => [x]
  | y :: rest => if x < y then x :: y :: rest else if x = y then y :: rest else y :: insertSorted x rest

def sortedSet (l : List Nat) : List Nat := l.foldr insertSorted []

end Sys2Proof.Machine
end

