-- ==== Sys2Proof/Machine/Operands.lean ====
section
/-! DEFINITION. The codes and layouts of chapter 11: the code of every enumerated value (section 11.3), the word of every
report and demand cell (R175), and the fields of list entries and their packed operands (R176). -/

namespace Sys2Proof.Machine

/-! ## Codes (section 11.3) -/

def flagCode (b : Bool) : Nat := if b then 1 else 0

def PartState.code : PartState → Nat
  | .resetting => 0 | .loading => 1 | .service => 2 | .fallback => 3

def ListResult.code : ListResult → Nat
  | .none => 0 | .complete => 1 | .stopped => 2 | .aborted => 3 | .limit => 4 | .refusedPlace => 5

def Reason.code : Reason → Nat
  | .range => 1 | .state => 2 | .notFree => 3 | .poolFull => 4 | .loop => 5 | .badCode => 6 | .badOption => 7
  | .length => 8

def ZoneMode.code : ZoneMode → Nat
  | .auto => 0 | .closed => 1 | .dormant => 2

def ZoneMode.ofCode : Nat → Option ZoneMode
  | 0 => some .auto | 1 => some .closed | 2 => some .dormant | _ => none

def Access.code : Access → Nat
  | .isOpen => 0 | .full => 1 | .closed => 2 | .fumeClosed => 3 | .dormant => 4

def Rest.code : Rest → Nat
  | .active => 0 | .quiet => 1 | .asleep => 2

def Wake.code : Wake → Nat
  | .none => 0 | .bay => 1 | .promise => 2 | .mode => 3 | .fume => 4

def BayState.code : BayState → Nat
  | .free => 0 | .held => 1 | .occupied => 2 | .unknown => 3 | .outOfService => 4

def BayClass.code : BayClass → Nat
  | .ordinary => 0 | .charging => 1 | .accessible => 2 | .family => 3

def BayClass.ofCode : Nat → Option BayClass
  | 0 => some .ordinary | 1 => some .charging | 2 => some .accessible | 3 => some .family | _ => none

/-- The BAY_OUT detail: SENSOR 0, OPERATOR 1. -/
def reasonSensorCode : Word := 0
def reasonOperatorCode : Word := 1

def Colour.code : Colour → Nat
  | .off => 0 | .green => 1 | .blue => 2 | .amber => 3 | .red => 4

def Blink.code : Blink → Nat
  | .steady => 0 | .slow => 1 | .fast => 2

def SensorHealth.code : SensorHealth → Nat
  | .fresh => 0 | .stale => 1 | .fault => 2

def CommandState.code : CommandState → Nat
  | .ready => 0 | .inFlight => 1 | .retryWait => 2 | .fault => 3

def LineOutcome.code : LineOutcome → Nat
  | .none => 0 | .positive => 1 | .negative _ => 2 | .silent => 3

/-- The error code a line outcome carries, 0 unless it is NEGATIVE (R175). -/
def LineOutcome.error : LineOutcome → Nat
  | .negative code => code.toNat
  | _ => 0

def PointState.code : PointState → Nat
  | .disabled => 0 | .idle => 1 | .showing => 2 | .fullShown => 3

def Arrow.code : Arrow → Nat
  | .left => 1 | .right => 2 | .ahead => 3 | .rampUp => 4 | .rampDown => 5

def Arrow.ofCode : Nat → Option Arrow
  | 1 => some .left | 2 => some .right | 3 => some .ahead | 4 => some .rampUp | 5 => some .rampDown | _ => none

def SignHealth.code : SignHealth → Nat
  | .ok => 0 | .fault => 1

def LinkState.code : LinkState → Nat
  | .reachable => 0 | .unreachable => 1

def Policy.ofCode : Nat → Option Policy
  | 0 => some .ordered | 1 => some .weighted | _ => none

def gasOfCode : Nat → Option Gas
  | 0 => some .co | 1 => some .no2 | _ => none

def lineOfCode : Nat → Option DriveLine
  | 0 => some .a | 1 => some .b | 2 => some .c | _ => none

def SectionKind.ofCode : Nat → Option SectionKind
  | 0 => some .general | 1 => some .zone | 2 => some .bay | 3 => some .fan | 4 => some .string | 5 => some .point
  | 6 => some .sensor | 7 => some .notice | _ => none

/-- The input B class: a class, or UNUSED as `some none`; any other code is none. -/
def inputBOfCode : Nat → Option (Option BayClass)
  | 1 => some (some .charging) | 2 => some (some .accessible) | 3 => some (some .family) | 4 => some none | _ => none

def NoticeKind.code : NoticeKind → Nat
  | .fumeStage => 1 | .zoneAccess => 2 | .intrusion => 3 | .sensorStale => 4 | .sensorFault => 5 | .sensorBack => 6
  | .driveFault => 7 | .driveRecovered => 8 | .bayOut => 9 | .holdTaken => 10 | .holdLapsed => 11
  | .promisesRecalled => 12 | .poolEmpty => 13 | .lampFailed => 14 | .stringUnreachable => 15 | .signFault => 16
  | .overCap => 17 | .guarded => 18 | .rejected => 19 | .triggerRefused => 20 | .listDone => 21

/-! ## Faces -/

def FaceKind.code : FaceKind → Nat
  | .blank => 0 | .summary => 1 | .arrow => 2 | .full => 3 | .closed => 4

/-- R59: the kind of a DP's face. -/
def Face.kind : Face → FaceKind
  | .blank => .blank | .summary _ => .summary | .arrow .. => .arrow | .full => .full

/-- R175: the arrow is 0 on a face that has none. -/
def Face.arrowCode : Face → Nat
  | .arrow a _ _ _ => a.code
  | _ => 0

/-- R175: the number is 0 on a face that has none. -/
def Face.number : Face → Nat
  | .summary n => n
  | .arrow _ n _ _ => n
  | _ => 0

/-- R59: the blink of a face, SLOW or STEADY. -/
def Face.slow : Face → Bool
  | .arrow _ _ b _ => b
  | _ => false

/-- R59: the shown target of a face. -/
def Face.shown : Face → Option Target
  | .arrow _ _ _ t => some t
  | _ => none

/-! ## Words of cells (R175) -/

/-- A word of four byte fields, byte 0 first. -/
def packBytes (b0 b1 b2 b3 : Nat) : Word :=
  BitVec.ofNat 32 (b0 % 256 + 256 * (b1 % 256) + 65536 * (b2 % 256) + 16777216 * (b3 % 256))

/-- A word of two 16-bit fields, bits 15 to 0 first. -/
def packHalves (lo hi : Nat) : Word := BitVec.ofNat 32 (lo % 65536 + 65536 * (hi % 65536))

/-- R175: an absent reading is shown as 0xFFFF. -/
def absentOr (v : Option Nat) : Nat := v.getD 65535

/-- R47: zone promises(z, c). -/
def State.zonePromisesOf (s : State) (z : Nat) (c : BayClass) : Nat :=
  s.pool.countP (fun p => p.target == .zone z && p.cls == c)

/-- R47: zone promises(z). -/
def State.zonePromises (s : State) (z : Nat) : Nat := s.pool.countP (fun p => p.target == .zone z)

/-- R47: transit(d, c). -/
def State.transitOf (s : State) (d : Nat) (c : BayClass) : Nat :=
  s.pool.countP (fun p => p.target == .point d && p.cls == c)

/-- R47: transit(d). -/
def State.transit (s : State) (d : Nat) : Nat := s.pool.countP (fun p => p.target == .point d)

/-- R33: the remaining time of bay `b`'s hold, 0 without one. -/
def State.holdRemaining (s : State) (b : Nat) : Word :=
  match s.hold b with
  | some h => h.expiry - s.partTime
  | none => 0

/-- R90: the age of a sensor, which stops at 65,535 until the next valid reply. -/
def State.sensorAge (s : State) (n : Nat) : Nat :=
  match (s.sensor n).lastValid with
  | some t => if (s.sensor n).ageStopped then Config.ageLimit else min Config.ageLimit (s.partTime - t).toNat
  | none => Config.ageLimit

/-- R160: IDLE 0 or RUNNING 1. -/
def Runner.running (r : Runner) : Bool := r.phase != .idle

/-- R175: three line outcomes with their error codes, the LINE ANSWERS layout. -/
def answersWord (a : PerLine LineOutcome) : Word :=
  BitVec.ofNat 32 (a.a.code + 4 * a.b.code + 16 * a.c.code + 256 * a.a.error + 65536 * a.b.error + 16777216 * a.c.error)

/-- The target levels of positions 0 to n − 1 of a string. -/
def State.targetsOf (s : State) (k : Nat) : List Nat :=
  (List.range (s.stringConfig k).count).map (fun p => ((s.lampString k).luminaires.getD p Luminaire.reset).target)

/-- R130: the lowest target of a string. -/
def State.lowestTarget (s : State) (k : Nat) : Nat := (s.targetsOf k).foldl min ((s.targetsOf k).headD 0)

/-- R130: the highest target of a string. -/
def State.highestTarget (s : State) (k : Nat) : Nat := (s.targetsOf k).foldl max 0

/-- R175: place `i` of the failed list, 0xFF where it is empty. -/
def failedPlace (l : List Nat) (i : Nat) : Nat := l.getD i 255

/-- GENERAL, R145 and R175. -/
def generalWord (s : State) : Nat → Word
  | 0 => BitVec.ofNat 32 s.loader.partState.code
  | 1 => s.partTime
  | 4 => packBytes (flagCode s.runner.running) s.runner.entriesDone s.runner.result.code 0
  | 5 => s.notices.writeIndex.zeroExtend 32
  | 6 => s.notices.readIndex.zeroExtend 32
  | 7 => BitVec.ofNat 32 s.notices.threshold
  | 8 => s.notices.lost.zeroExtend 32
  | 9 => s.notices.guarded.zeroExtend 32
  | 10 => s.notices.rejected.zeroExtend 32
  | 11 => s.runner.refusals.zeroExtend 32
  | 12 => BitVec.ofNat 32 s.allFull
  | 13 => BitVec.ofNat 32 s.budget.cap
  | 14 => BitVec.ofNat 32 s.budget.protectedPower
  | 15 => BitVec.ofNat 32 s.budget.grantedPower
  | 16 => packHalves s.pool.length s.holds.length
  | 17 => s.stray.zeroExtend 32
  | _ => 0

/-- ZONE, R16, R91 and R175. -/
def zoneWord (s : State) (z : Nat) : Nat → Word
  | 0 => BitVec.ofNat 32 (s.zone z).mode.code
  | 1 => BitVec.ofNat 32 (s.zone z).extraAir
  | 2 => BitVec.ofNat 32 (s.zone z).access.code
  | 3 => packBytes (s.zone z).fume (s.zoneGas z).coStage (s.zoneGas z).no2Stage (flagCode (s.zoneGas z).blind)
  | 4 => packHalves (absentOr (s.zoneGas z).coValue) (absentOr (s.zoneGas z).no2Value)
  | 5 => packBytes (s.zone z).rest.code (s.zone z).wake.code 0 0
  | 6 => packHalves (s.zone z).free.ordinary (s.zone z).free.charging
  | 7 => packHalves (s.zone z).free.accessible (s.zone z).free.family
  | 8 => packHalves (s.zone z).held (s.zone z).occupied
  | 9 => packHalves (s.zone z).unknown (s.zone z).outOfService
  | 10 => packHalves (s.zonePromises z) (s.zoneConfig z).promiseLimit
  | 11 => packHalves (s.zone z).paced.toNat (s.zone z).unpromised.toNat
  | 12 => packHalves (s.zone z).lapsed.toNat (s.zone z).recalled.toNat
  | 13 => (s.zone z).withdrawn.zeroExtend 32
  | _ => 0

/-- BAY, R41 and R175. -/
def bayWord (s : State) (b : Nat) : Nat → Word
  | 0 => BitVec.ofNat 32
      ((s.bay b).state.code + 16 * (s.bayConfig b).cls.code + 256 * flagCode (s.bay b).reasonSensor
        + 512 * flagCode (s.bay b).reasonOperator + 4096 * flagCode (s.hold b).isSome
        + 65536 * (s.bay b).indicator.colour.code + 1048576 * (s.bay b).indicator.blink.code)
  | 1 => s.holdRemaining b
  | _ => 0

/-- FAN, R110 and R175. -/
def fanWord (s : State) (g : Nat) : Nat → Word
  | 0 => BitVec.ofNat 32 (s.group g).floor
  | 1 => packBytes (s.group g).state.code (flagCode (s.group g).faulted) (s.group g).k (s.group g).t
  | 2 => packBytes (s.group g).p (s.group g).q (s.group g).g 0
  | 3 => answersWord (s.group g).answers
  | 4 => BitVec.ofNat 32 ((s.group g).failureCount % 256 + 65536 * (s.group g).failedCommands.toNat)
  | _ => 0

/-- The word of LEVELS position `w` of a string (R115, R175). -/
def levelsWord (s : State) (k w : Nat) : Word :=
  packBytes ((s.lampString k).levels.getD (4 * w) 0) ((s.lampString k).levels.getD (4 * w + 1) 0)
    ((s.lampString k).levels.getD (4 * w + 2) 0) ((s.lampString k).levels.getD (4 * w + 3) 0)

/-- The word of one FAILED LIST cell, places `i` to `i + 3`. -/
def failedWord (l : List Nat) (i : Nat) : Word :=
  packBytes (failedPlace l i) (failedPlace l (i + 1)) (failedPlace l (i + 2)) (failedPlace l (i + 3))

/-- The REPORT cells of a STRING, R130 and R175. -/
def stringReportWord (s : State) (k : Nat) : Nat → Word
  | 16 => packBytes (flagCode (s.lampString k).override) (s.lampString k).rest.code (s.lampString k).link.code
      (s.lampString k).failed.length
  | 17 => packBytes (s.lowestTarget k) (s.highestTarget k) 0 0
  | 18 => failedWord (s.lampString k).failed 0
  | 19 => failedWord (s.lampString k).failed 4
  | 20 => BitVec.ofNat 32 ((s.stringClaim k).prot % 4096 + 4096 * ((s.stringClaim k).disc % 4096)
      + 16777216 * flagCode (s.lampString k).grant)
  | _ => 0

/-- STRING. -/
def stringWord (s : State) (k p : Nat) : Word := if p < 16 then levelsWord s k p else stringReportWord s k p

/-- POINT, R75 and R175. -/
def pointWord (s : State) (d : Nat) : Nat → Word
  | 0 => BitVec.ofNat 32
      ((s.point d).state.code + 4 * (s.point d).face.kind.code + 32 * (s.point d).face.arrowCode
        + 256 * (s.point d).face.number + 262144 * flagCode (s.point d).face.slow
        + 524288 * (s.point d).health.code)
  | 1 => (s.point d).passages.zeroExtend 32
  | 2 => packHalves (s.point d).turnedAway.toNat (s.point d).poolEmpty.toNat
  | 3 => packHalves (s.transit d) (s.pointConfig d).transitLimit
  | 4 => BitVec.ofNat 32 (s.point d).pointer
  | _ => 0

/-- SENSOR, R90 and R175. -/
def sensorWord (s : State) (n : Nat) : Nat → Word
  | 0 => packBytes (s.sensor n).health.code (s.sensor n).misses 0 0
  | 1 => packHalves (absentOr (s.sensor n).co) (absentOr (s.sensor n).no2)
  | 2 => BitVec.ofNat 32 (s.sensorAge n)
  | _ => 0

/-- R146, R152: the part's value of a REPORT cell, or the demand copy of a DEMAND cell. -/
def cellValue (s : State) (c : CellRef) : Word :=
  match c.kind with
  | .general => generalWord s c.position
  | .zone => zoneWord s c.object c.position
  | .bay => bayWord s c.object c.position
  | .fan => fanWord s c.object c.position
  | .string => stringWord s c.object c.position
  | .point => pointWord s c.object c.position
  | .sensor => sensorWord s c.object c.position
  | .notice => 0

/-! ## Words of notices (section 11.1) -/

/-- One word of a notice slot. -/
def Notice.word (n : Notice) : Nat → Word
  | 0 => packBytes n.kind.code n.severity 0 0
  | 1 => match n.object with
    | some i => BitVec.ofNat 32 i
    | none => 0xFFFFFFFF
  | 2 => n.time
  | _ => n.detail

/-! ## List entries (R163, R164, R176) -/

/-- R168: the commands. -/
inductive ListCommand where
  | endList
  | hold
  | release
  | bayService
  | bayClass
  | zonePacing
  | chain
  | weights
  | pointEnable
  | zoneMarks
  | stageMap
  | scene
  | cap
  | clearCounts
  | restart
deriving DecidableEq, Repr

def ListCommand.ofCode : Nat → Option ListCommand
  | 1 => some .endList | 2 => some .hold | 3 => some .release | 4 => some .bayService | 5 => some .bayClass
  | 6 => some .zonePacing | 7 => some .chain | 8 => some .weights | 9 => some .pointEnable | 10 => some .zoneMarks
  | 11 => some .stageMap | 12 => some .scene | 13 => some .cap | 14 => some .clearCounts | 15 => some .restart
  | _ => none

/-- R168: the fixed operand counts. -/
def ListCommand.operandCount : ListCommand → Option Nat
  | .endList => some 0 | .hold => some 2 | .release => some 1 | .bayService => some 2 | .bayClass => some 2
  | .zonePacing => some 4 | .chain => none | .weights => some 33 | .pointEnable => some 2 | .zoneMarks => some 10
  | .stageMap => some 6 | .scene => none | .cap => some 1 | .clearCounts => some 0 | .restart => some 0

/-- R164: the options. -/
inductive ListOption where
  | continueOn
  | fade
  | extend
  | silent
deriving DecidableEq, Repr

def ListOption.ofCode : Nat → Option ListOption
  | 1 => some .continueOn | 2 => some .fade | 3 => some .extend | 4 => some .silent | _ => none

/-- R164: where an option is meaningful. -/
def ListOption.meaningful (o : ListOption) (c : ListCommand) : Bool :=
  match o with
  | .continueOn => c != .endList && c != .cap
  | .fade => c == .scene
  | .extend => c == .hold
  | .silent => c == .endList

/-- R176: the header's command code. -/
def headerCode (w : Word) : Nat := w.toNat % 256
/-- R176: the header's option count. -/
def headerOptions (w : Word) : Nat := w.toNat / 256 % 8
/-- R176: the header's operand count. -/
def headerOperands (w : Word) : Nat := w.toNat / 65536 % 64

/-- R176: an option word's code. -/
def optionCode (w : Word) : Nat := w.toNat % 256
/-- R176: an option word's value. -/
def optionValue (w : Word) : Nat := w.toNat / 65536

/-- R176: a packed chain entry; none where a bit outside its fields is set or the arrow is not one of the five. -/
def chainEntryOf (w : Nat) : Option ChainEntry :=
  let index := w % 256
  let kind := w / 256 % 2
  let arrow := w / 65536 % 8
  if w = index + 256 * kind + 65536 * arrow then
    (Arrow.ofCode arrow).map fun a => ⟨if kind = 0 then .zone index else .point index, a⟩
  else none

/-- R176: a packed SCENE pair, string then level; none where a bit outside its fields is set. -/
def scenePairOf (w : Nat) : Option (Nat × Nat) :=
  if w < 65536 then some (w % 256, w / 256) else none

/-- R176: a WEIGHTS phase: an entry index 0 to 7, EMPTY as `some none`; none otherwise. -/
def phaseOf (w : Nat) : Option (Option Nat) :=
  if w < 8 then some (some w) else if w = 255 then some none else none

/-- R176: a status word. -/
def statusWord (outcome reason : Nat) : Word := packBytes outcome reason 0 0

/-- R176: DONE, or REFUSED with its reason. -/
def EntryOutcome.status (o : EntryOutcome) : Word :=
  match o.refusal with
  | none => statusWord 1 0
  | some r => statusWord 2 r.code

/-- R166, R176: ABANDONED. -/
def abandonedStatus : Word := statusWord 3 0
/-- R166, R176: REFUSED with reason LENGTH, the status of a 65th entry. -/
def lengthStatus : Word := statusWord 2 Reason.length.code

/-- The items of a list that all decode, or none. -/
def allSome {α β : Type} (f : α → Option β) : List α → Option (List β)
  | [] => some []
  | a :: rest => match f a, allSome f rest with
    | some b, some bs => some (b :: bs)
    | _, _ => none

end Sys2Proof.Machine
end

