-- ==== Sys2Proof/Machine/Flags.lean ====
section
/-! DEFINITION. What the part derives from its state and holds or compares: access and bay states, indicator modes,
availability, reach and eligibility, gas stages, fan stages, target levels and claims. Each is a function of the state
as it stands. -/

namespace Sys2Proof.Machine

/-! ## Zones -/

/-- R50: available(z, c). R62 keeps the promises at or below the free count. -/
def State.available (s : State) (z : Nat) (c : BayClass) : Nat := (s.zone z).free.get c - s.zonePromisesOf z c

/-- R6: the first line that holds gives the access state. -/
def State.deriveAccess (s : State) (z : Nat) : Access :=
  if 3 ≤ (s.zone z).fume then .fumeClosed
  else if (s.zone z).mode = .dormant then .dormant
  else if (s.zone z).mode = .closed then .closed
  else if allClasses.all (fun c => s.available z c == 0) then .full
  else .isOpen

/-! ## Bays -/

/-- R29: the first line that holds gives the bay state. -/
def Bay.derive (b : Bay) (held : Bool) : BayState :=
  if b.reasonSensor || b.reasonOperator then .outOfService
  else if !b.live then .unknown
  else if b.occupied then .occupied
  else if held then .held
  else .free

/-- R30. -/
def isArrival (before after : BayState) : Bool :=
  after == .occupied && (before == .free || before == .held)

/-- R30. -/
def isDeparture (before after : BayState) : Bool :=
  before == .occupied && (after == .free || after == .held)

/-- R39: AMBER at the blink of the nearing flag. -/
def amber (nearing : Bool) : Indicator := ⟨.amber, if nearing then .fast else .slow⟩

/-- R39: the indicator mode from its inputs. -/
def indicatorOf (mode : ZoneMode) (access : Access) (st : BayState) (cls : BayClass) (nearing : Bool) : Indicator :=
  if mode = .dormant then
    if st = .held then amber nearing else ⟨.off, .steady⟩
  else
    match st with
    | .free =>
      if access = .fumeClosed then ⟨.red, .fast⟩
      else if cls = .ordinary then ⟨.green, .steady⟩
      else ⟨.blue, .steady⟩
    | .held => amber nearing
    | .occupied => ⟨.red, .steady⟩
    | .unknown => ⟨.off, .steady⟩
    | .outOfService => ⟨.red, .slow⟩

/-- R31: the nearing flag of the bay's hold, clear without one. -/
def State.nearing (s : State) (b : Nat) : Bool :=
  match s.hold b with
  | some h => h.nearing
  | none => false

/-- R39: the indicator mode of bay `b`. -/
def State.deriveIndicator (s : State) (b : Nat) : Indicator :=
  let z := (s.bayConfig b).zone
  indicatorOf (s.zone z).mode (s.zone z).access (s.bay b).state (s.bayConfig b).cls (s.nearing b)

/-! ## Guidance -/

/-- R51: the sum over the chain, with `onward` the reach through an onward DP. -/
def State.reachWith (s : State) (onward : Nat → BayClass → Nat) (d : Nat) (c : BayClass) : Nat :=
  ((s.pointConfig d).chain.map fun entry =>
    match entry.target with
    | .zone z => if (s.zone z).access = .isOpen || (s.zone z).access = .full then s.available z c else 0
    | .point d' => if (s.point d').state = .disabled then 0 else onward d' c - s.transitOf d' c).sum

/-- R51, over chains of onward links at most `fuel` long. -/
def State.reachFuel (s : State) : Nat → Nat → BayClass → Nat
  | 0, _, _ => 0
  | fuel + 1, d, c => s.reachWith (s.reachFuel fuel) d c

/-- R51: the reach of a DP for a class. Onward links form no cycle, so no path of them is longer than the DPs are many. -/
def State.reach (s : State) (d : Nat) (c : BayClass) : Nat := s.reachFuel Config.points d c

/-- R66. -/
def State.summaryNumber (s : State) (d : Nat) : Nat := min Config.signNumberMax (s.reach d .ordinary)

/-- R52: what a search finds at an entry. -/
inductive Verdict where
  | eligible
  | paced
  | no
deriving DecidableEq, Repr

/-- R52: a ZONE entry examined for a class. Half the limit is rounded up. The time since the zone's last promise is taken
modulo 2^32 (assumption 28, the model's choice). -/
def State.examineZone (s : State) (z : Nat) (c : BayClass) : Verdict :=
  if ((s.zone z).access = .isOpen || (s.zone z).access = .full) && 0 < s.available z c
      && s.zonePromises z < (s.zoneConfig z).promiseLimit then
    if ((s.zoneConfig z).promiseLimit + 1) / 2 ≤ s.zonePromises z
        && (s.partTime - (s.zone z).lastPromise).toNat < (s.zoneConfig z).spacing then .paced
    else .eligible
  else .no

/-- R53: an ONWARD entry examined for a class. -/
def State.examineOnward (s : State) (d : Nat) (c : BayClass) : Verdict :=
  if (s.point d).state ≠ .disabled && s.transit d < (s.pointConfig d).transitLimit
      && s.transitOf d c < s.reach d c then .eligible
  else .no

/-- R52, R53. -/
def State.examine (s : State) (entry : ChainEntry) (c : BayClass) : Verdict :=
  match entry.target with
  | .zone z => s.examineZone z c
  | .point d => s.examineOnward d c

/-- R54: the number of an ARROW face, from the values as they stand. -/
def State.arrowNumber (s : State) (t : Target) (c : BayClass) : Nat :=
  min Config.signNumberMax <|
    match t with
    | .zone z => s.available z c
    | .point d => s.reach d c - s.transitOf d c

/-- The DPs that a chain's onward entries name. -/
def onwardOf (chain : List ChainEntry) : List Nat :=
  chain.filterMap fun entry =>
    match entry.target with
    | .point d => some d
    | .zone _ => none

/-- Of the DPs `alive`, those with an onward link to one of them. -/
def onwardStep (chains : List (List ChainEntry)) (alive : List Nat) : List Nat :=
  alive.filter fun d => (onwardOf (chains.getD d [])).any fun d' => alive.contains d'

/-- The DPs left after `n` rounds of leaving out those without an onward link to one that is left. -/
def onwardRounds (chains : List (List ChainEntry)) : Nat → List Nat → List Nat
  | 0, alive => alive
  | n + 1, alive => onwardRounds chains n (onwardStep chains alive)

/-- R45, R68: the onward links form a cycle exactly when some DP survives as many rounds as there are DPs. -/
def hasCycle (chains : List (List ChainEntry)) : Bool :=
  !(onwardRounds chains chains.length (List.range chains.length)).isEmpty

/-! ## Air -/

/-- R78: rise mark Uk. -/
def Marks.rise (m : Marks) : Nat → Nat
  | 1 => m.u1 | 2 => m.u2 | 3 => m.u3 | 4 => m.u4 | _ => 0

/-- R78: fall mark Lk. -/
def Marks.fall (m : Marks) : Nat → Nat
  | 1 => m.l1 | 2 => m.l2 | 3 => m.l3 | 4 => m.l4 | _ => 0

/-- R84: the largest stage above `g` whose rise mark `v` has reached, or `g`. -/
def Marks.risen (m : Marks) (v g : Nat) : Nat :=
  if g < 4 && m.u4 ≤ v then 4
  else if g < 3 && m.u3 ≤ v then 3
  else if g < 2 && m.u2 ≤ v then 2
  else if g < 1 && m.u1 ≤ v then 1
  else g

/-- R84, R85: one evaluation of a gas: the stage after the rise test, and the fall-hold timer after both tests.
`fresh` is a timer started now. -/
def Marks.evaluate (m : Marks) (v g : Nat) (timer fresh : Option Timer) : Nat × Option Timer :=
  let g' := m.risen v g
  let kept := if g < g' then none else timer
  (g', if g' = 0 then none else if v < m.fall g' then (if kept.isSome then kept else fresh) else none)

/-- R89: the conditions on a set of marks for a gas of the given full scale. -/
def Marks.ok (m : Marks) (scale : Nat) : Bool :=
  [m.u1, m.u2, m.u3, m.u4, m.l1, m.l2, m.l3, m.l4].all (fun v => 0 < v && v ≤ scale)
    && m.u1 < m.u2 && m.u2 < m.u3 && m.u3 < m.u4 && m.l1 < m.l2 && m.l2 < m.l3 && m.l3 < m.l4
    && m.l1 < m.u1 && m.l2 < m.u2 && m.l3 < m.u3 && m.l4 < m.u4

/-- R89: full scale of a gas. -/
def fullScale : Gas → Nat
  | .co => Config.coFullScale
  | .no2 => Config.no2FullScale

def ZoneConfig.marks (z : ZoneConfig) : Gas → Marks
  | .co => z.coMarks
  | .no2 => z.no2Marks

def ZoneGas.value (g : ZoneGas) : Gas → Option Nat
  | .co => g.coValue
  | .no2 => g.no2Value

def ZoneGas.stage (g : ZoneGas) : Gas → Nat
  | .co => g.coStage
  | .no2 => g.no2Stage

def ZoneGas.timer (g : ZoneGas) : Gas → Option Timer
  | .co => g.coTimer
  | .no2 => g.no2Timer

def ZoneGas.setStage (g : ZoneGas) (gas : Gas) (stage : Nat) (timer : Option Timer) : ZoneGas :=
  match gas with
  | .co => { g with coStage := stage, coTimer := timer }
  | .no2 => { g with no2Stage := stage, no2Timer := timer }

/-- The larger of two optional readings. -/
def maxReading : Option Nat → Option Nat → Option Nat
  | some a, some b => some (max a b)
  | some a, none => some a
  | none, b => b

/-- R82: the zone's FRESH sensors. -/
def State.freshSensors (s : State) (z : Nat) : List Nat :=
  (s.sensorsOf z).filter fun n => (s.sensor n).health == .fresh

/-- R82: the zone gas value, the largest reading of a FRESH sensor. -/
def State.gasValue (s : State) (z : Nat) (gas : Gas) : Option Nat :=
  (s.freshSensors z).foldl (fun m n => maxReading m (match gas with
    | .co => (s.sensor n).co
    | .no2 => (s.sensor n).no2)) none

/-! ## Drives -/

/-- R96: the shallowest rest among the served zones. -/
def State.groupRest (s : State) (g : Nat) : Rest :=
  if (s.groupConfig g).served.any (fun z => (s.zone z).rest == .active) then .active
  else if (s.groupConfig g).served.any (fun z => (s.zone z).rest == .quiet) then .quiet
  else .asleep

/-- R94: the base stage for a rest. -/
def GroupConfig.base (c : GroupConfig) : Rest → Nat
  | .active => c.baseActive
  | .quiet => c.baseQuiet
  | .asleep => c.baseAsleep

/-- R94: map(s) of a zone. -/
def State.stageMap (s : State) (z stage : Nat) : Nat := (s.zoneConfig z).stageMap.getD stage 0

/-- R96: the protected stage. -/
def State.composeP (s : State) (g : Nat) : Nat :=
  (s.groupConfig g).served.foldl (fun m z => max m (s.stageMap z (s.zone z).fume))
    ((s.groupConfig g).base (s.groupRest g))

/-- R98: the requested discretionary stage. -/
def State.composeQ (s : State) (g : Nat) : Nat :=
  (s.groupConfig g).served.foldl (fun m z => max m (s.zone z).extraAir) (s.group g).floor

/-- R100: power(s). -/
def State.power (s : State) (g stage : Nat) : Nat := (s.groupConfig g).power.getD stage 0

/-- R101: the next stage, if there is one. -/
def Group.nextStage (g : Group) : Option Nat :=
  if g.k < g.t then some g.t
  else if g.t < g.k && g.stepTimer.isNone then some (g.k - 1)
  else none

/-- R105: POSITIVE outcomes needed, by lines of the group. -/
def positivesNeeded (lines : Nat) : Nat := if lines ≤ 2 then 1 else 2

/-- R105: the command has an outcome on every line of the group. -/
def Command.judged (c : Command) (lines : List DriveLine) : Bool := lines.all fun l => (c.outcomes.get l).isSome

/-- R105: the command is good. -/
def Command.good (c : Command) (lines : List DriveLine) : Bool :=
  positivesNeeded lines.length ≤ lines.countP fun l => c.outcomes.get l == some .positive

/-- R107, section 11.1: the outcomes of a command on A, B and C, NONE for a line the group does not use. -/
def Command.answers (c : Command) : PerLine LineOutcome :=
  ⟨c.outcomes.a.getD .none, c.outcomes.b.getD .none, c.outcomes.c.getD .none⟩

/-! ## Lighting -/

/-- R118: the base level by rest. -/
def baseLevel (rest : Rest) (demand economy : Nat) : Nat :=
  match rest with
  | .active => demand
  | .quiet => min demand economy
  | .asleep => 0

/-- R118: an unbudgeted target. -/
def unbudgetedTarget (c : StringConfig) (k : LampString) (demand : Nat) (boosted : Bool) : Nat :=
  if k.override then 63
  else
    let base := baseLevel k.rest demand c.economy
    max c.safety (if boosted then max base c.boostLevel else base)

/-- R118: a target, from the unbudgeted target and the grant flag. -/
def targetLevel (c : StringConfig) (k : LampString) (unbudgeted : Nat) : Nat :=
  if k.override || k.grant then unbudgeted else c.safety

/-- R121: the claim for a level at each position. -/
def claimOf (c : StringConfig) (failed : List Nat) (level : Nat → Nat) : Nat :=
  ((((List.range c.count).filter fun p => !failed.contains p).map fun p => level p * c.rating).sum
    + (Config.wattLevelsPerUnit - 1)) / Config.wattLevelsPerUnit

/-- R121: the protected claim. -/
def protectedClaim (c : StringConfig) (k : LampString) : Nat :=
  claimOf c k.failed fun _ => if k.override then 63 else c.safety

/-- R121: the claim at the unbudgeted targets. -/
def wholeClaim (c : StringConfig) (k : LampString) : Nat :=
  claimOf c k.failed fun p => (k.luminaires.getD p Luminaire.reset).unbudgeted

/-- R126: the logical position of a physical place, and the other way round. -/
def StringConfig.flip (c : StringConfig) (j : Nat) : Nat := if c.reversed then c.count - 1 - j else j

/-- R126: the levels of a string frame in physical order. -/
def stringFrameLevels (c : StringConfig) (k : LampString) : List Nat :=
  (List.range c.count).map fun j => (k.luminaires.getD (c.flip j) Luminaire.reset).output

/-- R124: a sign is eligible while its pending mark is set. -/
def State.signEligible (s : State) (d : Nat) : Bool := d < s.pointCount && s.signPending d

/-- R124: a string is eligible while pending, if it is REACHABLE or its retry timer is absent. -/
def State.stringEligible (s : State) (k : Nat) : Bool :=
  k < s.stringCount && s.stringPending k
    && ((s.lampString k).link == .reachable || (s.lampString k).retryTimer.isNone)

/-- R40, R125: round-robin: the lowest chosen index above the last one served, or else the lowest. -/
def nextAbove (last : Nat) (l : List Nat) : Option Nat :=
  match l.find? (fun i => last < i) with
  | some i => some i
  | none => l.head?

end Sys2Proof.Machine
end

