-- ==== Sys2Proof/Machine/HandOn.lean ====
section
/-! DEFINITION. What one block does for, and hands on to, another within an event: promises and faces, rest and activity,
access, bay state changes, fume stages, claims and drive commands. Each is one shared operation that several events use. -/

namespace Sys2Proof.Machine

namespace Ev

/-! ## Promises (R47, R48) -/

/-- R48: mark the cells that a promise to `t` made or removed changes. -/
def markPromise (e : Ev) (t : Target) : Ev :=
  (match t with
    | .zone z => e.mark .zone z 10
    | .point d => e.mark .point d 3).markGeneral 16

/-- R47: remove the oldest promise that `p` picks. -/
def removeOldest (e : Ev) (p : Promise → Bool) : Ev :=
  { e with s := { e.s with pool := e.s.pool.eraseP p } }

/-- R62: remove the youngest promise that `p` picks. -/
def removeYoungest (e : Ev) (p : Promise → Bool) : Ev :=
  { e with s := { e.s with pool := (e.s.pool.reverse.eraseP p).reverse } }

/-- R60, R61: remove the oldest promise to `t` of class `c`, or else of any class. The event has checked that `t` has one. -/
def consume (e : Ev) (t : Target) (c : BayClass) : Ev :=
  (if e.s.pool.any (fun p => p.target == t && p.cls == c) then
      e.removeOldest (fun p => p.target == t && p.cls == c)
    else e.removeOldest (fun p => p.target == t)).markPromise t

/-- R61: an arrival in zone `z` at a bay of class `c` consumes a promise, or counts as unpromised. -/
def consumeArrival (e : Ev) (z : Nat) (c : BayClass) : Ev :=
  if e.s.pool.any (fun p => p.target == .zone z) then e.consume (.zone z) c
  else (e.modifyZone z fun r => { r with unpromised := r.unpromised + 1 }).mark .zone z 11

/-- R62: withdraw the youngest promise to `z` of class `c`. -/
def withdrawOne (e : Ev) (z : Nat) (c : BayClass) : Ev :=
  (((e.removeYoungest fun p => p.target == .zone z && p.cls == c).modifyZone z
    fun r => { r with withdrawn := r.withdrawn + 1 }).mark .zone z 13).markPromise (.zone z)

/-- R62: withdraw `n` promises, youngest first. -/
def withdrawMany (e : Ev) (z : Nat) (c : BayClass) : Nat → Ev
  | 0 => e
  | n + 1 => (e.withdrawOne z c).withdrawMany z c n

/-- R62: withdraw while the zone promises of a class outnumber its free count. -/
def withdraw (e : Ev) (z : Nat) (c : BayClass) : Ev :=
  e.withdrawMany z c (e.s.zonePromisesOf z c - (e.s.zone z).free.get c)

/-! ## Faces and signs (R59, R66) -/

/-- R59: a DP takes a state and a face; its STATE cell is marked and its sign's pending mark set, even where the new
face repeats the old one. -/
def setFace (e : Ev) (d : Nat) (st : PointState) (face : Face) : Ev :=
  ((e.modifyPoint d fun p => { p with state := st, face := face }).mark .point d 0).setSignPending d

/-- R63, R65, R70, R76: a DP becomes IDLE, with no show timer and the current summary number. -/
def toIdle (e : Ev) (d : Nat) : Ev :=
  (e.modifyPoint d fun p => { p with showTimer := none }).setFace d .idle (.summary (e.s.summaryNumber d))

/-- R63: every zone promise to `z` is recalled, and every DP showing an arrow to `z` becomes IDLE. -/
def recallPromises (e : Ev) (z : Nat) : Ev :=
  let n := e.s.zonePromises z
  let e1 := (e.modifyZone z fun r => { r with recalled := r.recalled + BitVec.ofNat 16 n }).mark .zone z 12
  let e2 :=
    if n = 0 then e1
    else
      (({ e1 with s := { e1.s with pool := e1.s.pool.filter fun p => p.target != Target.zone z } }).markPromise
        (.zone z)).post .promisesRecalled 2 (some z) (BitVec.ofNat 32 n)
  e2.forEach ((List.range e2.s.pointCount).filter fun d =>
    (e2.s.point d).state == .showing && (e2.s.point d).face.shown == some (.zone z)) toIdle

/-! ## Indicators (R39, R40) -/

/-- R39: re-derive a bay's indicator mode; a change marks STATE and sets the pending mark. -/
def refreshIndicator (e : Ev) (b : Nat) : Ev :=
  if (e.s.bay b).indicator = e.s.deriveIndicator b then e
  else
    ((e.modifyBay b fun r => { r with indicator := e.s.deriveIndicator b }).mark .bay b 0).setIndicatorPending b

/-- R8, R14, R40: a zone-level change re-derives and marks pending the indicator of every bay of the zone. -/
def refreshZoneIndicators (e : Ev) (z : Nat) : Ev :=
  e.forEach (e.s.baysOf z) fun e b => (e.refreshIndicator b).setIndicatorPending b

/-! ## Drive commands and claims (R96 to R103) -/

/-- R103: a group issues a command for a stage and joins the queue of each of its lines. -/
def issue (e : Ev) (g stage : Nat) : Ev :=
  ((e.modifyGroup g fun r =>
      { r with command := some ⟨stage, ⟨none, none, none⟩⟩, state := .inFlight }).mark .fan g 1).forEach
    (e.s.groupConfig g).lines fun e l => e.modifyLine l fun r => { r with queue := r.queue ++ [g] }

/-- R101: a READY group issues a command for its next stage, if it has one. -/
def issueNext (e : Ev) (g : Nat) : Ev :=
  if (e.s.group g).state = .ready then
    match (e.s.group g).nextStage with
    | some stage => e.issue g stage
    | none => e
  else e

/-- R96, R100: compose P afresh; a change is claimed at the end of the event. -/
def recomposeP (e : Ev) (g : Nat) : Ev :=
  if (e.s.group g).p = e.s.composeP g then e
  else
    { (e.modifyGroup g fun r => { r with p := e.s.composeP g }).mark .fan g 2 with groups := g :: e.groups }

/-- R98, R100: compose Q afresh; a change is claimed at the end of the event. -/
def recomposeQ (e : Ev) (g : Nat) : Ev :=
  if (e.s.group g).q = e.s.composeQ g then e
  else
    { (e.modifyGroup g fun r => { r with q := e.s.composeQ g }).mark .fan g 2 with groups := g :: e.groups }

/-- R100: a group takes the granted stage that the Budget holds for it, and its target stage is the larger of P and G. -/
def takeGrant (e : Ev) (g : Nat) : Ev :=
  let r := e.s.group g
  let granted := (e.s.groupClaim g).g
  let t := max r.p granted
  let e1 := e.modifyGroup g fun r => { r with g := granted, t := t }
  let e2 := if r.g = granted then e1 else e1.mark .fan g 2
  if r.t = t then e2 else (e2.mark .fan g 1).issueNext g

/-! ## Lighting (R118 to R120) -/

/-- R120: derive a string's override flag afresh. Becoming set, it puts every output at 63 at once. -/
def deriveOverride (e : Ev) (k : Nat) : Ev :=
  let now := (e.s.lampString k).evacuation || e.s.allFull != 0
  if (e.s.lampString k).override = now then e
  else
    let e1 := ((e.modifyString k fun r => { r with override := now }).mark .string k 16).touchString k
    if now then
      (e1.modifyString k fun r =>
        { r with luminaires := r.luminaires.mapIdx fun p l =>
            if p < (e.s.stringConfig k).count then { l with output := 63 } else l }).setStringPending k
    else e1

/-- R119: boost a luminaire and its two neighbours, each where it exists. -/
def boost (e : Ev) (k p : Nat) : Ev :=
  let c := e.s.stringConfig k
  (e.modifyString k fun r =>
    { r with luminaires := r.luminaires.mapIdx fun i l =>
        if i < c.count && i ≤ p + 1 && p ≤ i + 1 then { l with boost := some (e.s.after c.boostTime) } else l }).touchString k

/-! ## Rest and activity (R9 to R14) -/

/-- R10, R14: a zone's rest state is handed to its serving groups and its strings. -/
def handRest (e : Ev) (z : Nat) : Ev :=
  (e.forEach (e.s.servingGroups z) recomposeP).forEach (e.s.stringsOf z) fun e k =>
    if (e.s.lampString k).rest = (e.s.zone z).rest then e
    else ((e.modifyString k fun r => { r with rest := (e.s.zone z).rest }).mark .string k 16).touchString k

/-- R10: the quiet timer started or restarted, where it may run. -/
def startQuiet (e : Ev) (z : Nat) : Ev :=
  if (e.s.zone z).fume = 0 then
    e.modifyZone z fun r => { r with quiet := e.s.startTimer (.seconds (e.s.zoneConfig z).quietTime) }
  else e

/-- R11 to R13: a QUIET or ASLEEP zone wakes. -/
def wakeZone (e : Ev) (z : Nat) (wake : Wake) : Ev :=
  (((e.modifyZone z fun r => { r with rest := .active, wake := wake }).mark .zone z 5).startQuiet z).handRest z

/-- R9: activity in a zone. -/
def activity (e : Ev) (z : Nat) (wake : Wake) : Ev :=
  if (e.s.zone z).rest = .active then e.startQuiet z else e.wakeZone z wake

/-- R10 to R14: a zone goes to rest. The wake reason is kept and the quiet timer is absent. -/
def restZone (e : Ev) (z : Nat) (rest : Rest) : Ev :=
  ((e.modifyZone z fun r => { r with rest := rest, quiet := none }).mark .zone z 5).handRest z

/-! ## Access (R6 to R8) -/

/-- R7, R8: re-derive a zone's access state and hand a change on. -/
def rederiveAccess (e : Ev) (z : Nat) : Ev :=
  let old := (e.s.zone z).access
  let new := e.s.deriveAccess z
  if old = new then e
  else
    let e1 := ((e.modifyZone z fun r => { r with access := new }).mark .zone z 2).post .zoneAccess 1 (some z)
      (BitVec.ofNat 32 new.code)
    if new = .fumeClosed then (e1.recallPromises z).refreshZoneIndicators z
    else if old = .fumeClosed then e1.refreshZoneIndicators z
    else e1

/-! ## Bay state changes (R3 to R5, R29, R30) -/

end Ev

/-- R3: the count that holds a bay. -/
inductive Slot where
  | free (c : BayClass)
  | held
  | occupied
  | unknown
  | outOfService
deriving DecidableEq, Repr

/-- R3: the count for a bay state and class. -/
def slotOf : BayState → BayClass → Slot
  | .free, c => .free c
  | .held, _ => .held
  | .occupied, _ => .occupied
  | .unknown, _ => .unknown
  | .outOfService, _ => .outOfService

/-- R16: the position of the cell that carries a count. -/
def Slot.position : Slot → Nat
  | .free .ordinary => 6
  | .free .charging => 6
  | .free .accessible => 7
  | .free .family => 7
  | .held => 8
  | .occupied => 8
  | .unknown => 9
  | .outOfService => 9

/-- R3: change one count of a zone. -/
def Zone.count (z : Zone) (slot : Slot) (f : Nat → Nat) : Zone :=
  match slot with
  | .free c => { z with free := z.free.set c (f (z.free.get c)) }
  | .held => { z with held := f z.held }
  | .occupied => { z with occupied := f z.occupied }
  | .unknown => { z with unknown := f z.unknown }
  | .outOfService => { z with outOfService := f z.outOfService }

/-- One of the four free counts. -/
def Slot.isFree : Slot → Bool
  | .free _ => true
  | _ => false

namespace Ev

/-- R3: move a bay between two counts of its zone. -/
def moveCount (e : Ev) (z : Nat) (before after : Slot) : Ev :=
  if before = after then e
  else
    ((e.modifyZone z fun r => (r.count before (· - 1)).count after (· + 1)).mark .zone z before.position).mark .zone z
      after.position

/-- R5: one bay state change, handled whole at the zone, in the order of the rule. -/
def bayChange (e : Ev) (b : Nat) (before : BayState) (beforeClass : BayClass) (after : BayState)
    (afterClass : BayClass) : Ev :=
  let z := (e.s.bayConfig b).zone
  let old := slotOf before beforeClass
  let new := slotOf after afterClass
  let e1 := e.moveCount z old new
  let e2 := if isArrival before after then e1.consumeArrival z afterClass else e1
  let e3 := if old ≠ new && (old.isFree || new.isFree) then e2.forEach allClasses (fun e c => e.withdraw z c) else e2
  let e4 := e3.rederiveAccess z
  if isArrival before after || isDeparture before after then
    (if (e4.s.zone z).mode = .dormant then e4.post .intrusion 2 (some z) (BitVec.ofNat 32 b) else e4).activity z .bay
  else e4

/-- R31: remove the hold of a bay. -/
def removeHold (e : Ev) (b : Nat) : Ev :=
  ((({ e with s := { e.s with holds := e.s.holds.filter fun h => h.bay != b } }).mark .bay b 1).mark .bay b 0).markGeneral 16

/-- R35: a hold is taken when its bay's occupancy is OCCUPIED. -/
def takeHold (e : Ev) (b : Nat) : Ev :=
  if (e.s.bay b).occupied && (e.s.hold b).isSome then (e.removeHold b).post .holdTaken 0 (some b) 0 else e

/-- R30: hand on a change of a bay's state, in the order of the rule. -/
def handBayState (e : Ev) (b : Nat) (before after : BayState) : Ev :=
  let c := e.s.bayConfig b
  let e1 := ((e.modifyBay b fun r => { r with state := after }).mark .bay b 0).bayChange b before c.cls after c.cls
  let e2 :=
    if isArrival before after || isDeparture before after then
      match c.luminaire with
      | some (k, p) => e1.boost k p
      | none => e1
    else e1
  e2.refreshIndicator b

/-- R29, R30, R35: re-derive a bay's state after its inputs changed, taking its hold first where a car stands there. -/
def rederiveBay (e : Ev) (b : Nat) : Ev :=
  let e1 := e.takeHold b
  let before := (e1.s.bay b).state
  let after := (e1.s.bay b).derive (e1.s.hold b).isSome
  if before = after then e1 else e1.handBayState b before after

/-! ## Fume stages (R86) -/

/-- R86: the fume stage is handed to the Drive Unit and the Light Unit (R96, R120). -/
def handFume (e : Ev) (z : Nat) : Ev :=
  (e.forEach (e.s.servingGroups z) recomposeP).forEach (e.s.stringsOf z) fun e k =>
    (e.modifyString k fun r => { r with evacuation := (e.s.zone z).fume == 4 }).deriveOverride k

/-- R10 to R12: the rest state follows a change of the fume stage from `old`. -/
def restOnFume (e : Ev) (z old : Nat) : Ev :=
  if old = 0 then
    let e1 := e.modifyZone z fun r => { r with quiet := none }
    if (e1.s.zone z).rest = .active then e1 else e1.wakeZone z .fume
  else if (e.s.zone z).fume = 0 && (e.s.zone z).rest = .active then e.startQuiet z
  else e

/-- R86: the fume stage takes a new value. -/
def setFume (e : Ev) (z stage : Nat) : Ev :=
  let old := (e.s.zone z).fume
  let e1 := ((e.modifyZone z fun r => { r with fume := stage }).mark .zone z 3).post .fumeStage
    (if 3 ≤ stage then 3 else 1) (some z) (BitVec.ofNat 32 stage)
  ((e1.rederiveAccess z).restOnFume z old).handFume z

/-- R86: derive the zone's fume stage after a change of its gas stages. -/
def deriveFume (e : Ev) (z : Nat) : Ev :=
  let stage := max (e.s.zoneGas z).coStage (e.s.zoneGas z).no2Stage
  if (e.s.zone z).fume = stage then e else e.setFume z stage

end Ev

end Sys2Proof.Machine
end

