-- ==== Sys2Proof/Machine/Image.lean ====
section
/-! DEFINITION. The image map (R143 to R145), marks, the injection queue and its sweep (R151 to R153), notices staged
while the ring is full (R156) and ATTN (R157). -/

namespace Sys2Proof.Machine

/-! ## Cells -/

/-- R144: the words one object occupies. -/
def SectionKind.stride : SectionKind → Nat
  | .general => 64 | .zone => 16 | .bay => 2 | .fan => 8 | .string => 24 | .point => 8 | .sensor => 4 | .notice => 4

/-- R144: the objects that exist. -/
def State.objects (s : State) : SectionKind → Nat
  | .general => 1
  | .zone => s.zoneCount
  | .bay => s.bayCount
  | .fan => s.groupCount
  | .string => s.stringCount
  | .point => s.pointCount
  | .sensor => s.sensorCount
  | .notice => Config.ringSlots

/-- R145 and the chapters' tables: the demand cells. -/
inductive Demand where
  | mode
  | extraAir
  | floor
  | levels
  | allFull
  | readIndex
  | threshold
deriving DecidableEq, Repr

/-- R144: the class of a cell. -/
inductive CellClass where
  | demand (d : Demand)
  | report
  | start
  | abort
  | log
  | spare
deriving DecidableEq, Repr

/-- R145: the classes of the GENERAL section. -/
def generalClass : Nat → CellClass
  | 2 => .start
  | 3 => .abort
  | 6 => .demand .readIndex
  | 7 => .demand .threshold
  | 12 => .demand .allFull
  | p => if p < 18 then .report else .spare

/-- R14 to R16. -/
def zoneClass : Nat → CellClass
  | 0 => .demand .mode
  | 1 => .demand .extraAir
  | p => if p < 14 then .report else .spare

/-- R99, R110. -/
def fanClass : Nat → CellClass
  | 0 => .demand .floor
  | p => if p < 5 then .report else .spare

/-- R115, R130. -/
def stringClass (p : Nat) : CellClass := if p < 16 then .demand .levels else if p < 21 then .report else .spare

/-- The class of a position of an object that exists. -/
def positionClass (kind : SectionKind) (p : Nat) : CellClass :=
  match kind with
  | .general => generalClass p
  | .zone => zoneClass p
  | .bay => if p < 2 then .report else .spare
  | .fan => fanClass p
  | .string => stringClass p
  | .point => if p < 5 then .report else .spare
  | .sensor => if p < 3 then .report else .spare
  | .notice => .log

/-- R143: the addresses of a window. -/
def Window.contains (w : Window) (a : Nat) : Bool := w.base ≤ a && a < w.base + 256 * w.blocks

/-- R144: the cell at an address of a window. -/
def Window.cell (w : Window) (a : Nat) : CellRef :=
  ⟨w.kind, w.first + (a - w.base) / w.kind.stride, (a - w.base) % w.kind.stride⟩

/-- R144: the cell at an address, none outside every window. Outside SERVICE no window is in force. -/
def State.cellAt (s : State) (a : Nat) : Option CellRef :=
  (s.plant.windows.find? (fun w => w.contains a)).map fun w => w.cell a

/-- R144: the class of a cell; an object that does not exist is SPARE. -/
def State.cellClass (s : State) (c : CellRef) : CellClass :=
  if c.object < s.objects c.kind then positionClass c.kind c.position else .spare

/-- R144: the class of the word at an address, none outside every window. -/
def State.classAt (s : State) (a : Nat) : Option CellClass := (s.cellAt a).map s.cellClass

/-- R144: the address of a cell in a window, none where the window does not hold it. -/
def Window.addressOf (w : Window) (c : CellRef) : Option Nat :=
  if w.kind = c.kind && w.first ≤ c.object then
    let offset := (c.object - w.first) * w.kind.stride + c.position
    if offset < 256 * w.blocks then some (w.base + offset) else none
  else none

/-- R144: the address of a cell of the image; a cell that no window covers has none and is never marked. -/
def State.addressOf (s : State) (c : CellRef) : Option Nat := s.plant.windows.findSome? fun w => w.addressOf c

/-- R151: REPORT and DEMAND cells have marks. -/
def CellClass.marked : CellClass → Bool
  | .demand _ => true
  | .report => true
  | _ => false

/-- R175: the part's value of the cell at an address. -/
def State.valueAt (s : State) (a : Nat) : Word :=
  match s.cellAt a with
  | some c => cellValue s c
  | none => 0

/-- R144: insert a window in the image's order, by base address. -/
def insertWindow (w : Window) : List Window → List Window
  | [] => [w]
  | v :: rest => if w.base ≤ v.base then w :: v :: rest else v :: insertWindow w rest

/-- R144: the REPORT and DEMAND cells of the image, in image order. -/
def State.imageCells (s : State) : List Nat :=
  (s.plant.windows.foldr insertWindow []).flatMap fun w =>
    ((List.range (256 * w.blocks)).filter fun i => (s.cellClass (w.cell (w.base + i))).marked).map fun i => w.base + i

/-- The REPORT cells of the image, in image order (R159). -/
def State.reportCells (s : State) : List Nat :=
  s.imageCells.filter fun a => s.classAt a == some .report

/-! ## The injection queue (R151 to R153) -/

/-- R154: the drain flag is set when the queue's count reaches 96 or more. -/
def MemoryPath.raiseDrain (p : MemoryPath) : MemoryPath :=
  if Config.drainMark ≤ p.queue.length then { p with drain := true } else p

/-- R151: append entries for the given cells, in order, each where it is not queued and the queue has room. -/
def MemoryPath.enqueue (p : MemoryPath) (cells : List Nat) : MemoryPath :=
  (cells.foldl (fun p a =>
    if p.queue.contains a || Config.injectionQueue ≤ p.queue.length then p else { p with queue := p.queue ++ [a] })
    p).raiseDrain

/-- R151: set the dirty marks of the given cells (in image order) and queue them. -/
def MemoryPath.markCells (p : MemoryPath) (cells : List Nat) : MemoryPath :=
  ({ p with dirty := cells.foldr insertSorted p.dirty }).enqueue cells

/-- R153: the dirty cells left unqueued, in image order from the sweep position round to it again. -/
def MemoryPath.sweepCells (p : MemoryPath) : List Nat :=
  let waiting := p.dirty.filter fun a => !p.queue.contains a
  let from' := p.sweep.getD 0
  (waiting.filter fun a => from' ≤ a) ++ (waiting.filter fun a => a < from')

/-- The cell after `a` in image order, passing from the last to the first (R153). -/
def nextCell (image : List Nat) (a : Nat) : Option Nat :=
  match image.find? (fun b => a < b) with
  | some b => some b
  | none => image.head?

/-- R153: the sweep, made when the queue's count falls to 32. A scan that fills the queue leaves the sweep position at
the cell after the last one examined; one that comes round leaves it where it was. -/
def MemoryPath.scan (p : MemoryPath) (image : List Nat) : MemoryPath :=
  let room := Config.injectionQueue - p.queue.length
  let found := p.sweepCells
  let p1 := p.enqueue (found.take room)
  if room ≤ found.length then
    match (found.take room).getLast? with
    | some a => { p1 with sweep := nextCell image a }
    | none => p1
  else p1

/-- R152 to R154: the head entry is removed; at a count of 32 the drain flag clears and the sweep scans. -/
def MemoryPath.dropHead (p : MemoryPath) (image : List Nat) : MemoryPath :=
  let p1 := { p with queue := p.queue.tail }
  if p1.queue.length = Config.lowMark && p.queue.length ≠ p1.queue.length then
    ({ p1 with drain := false }).scan image
  else p1

/-- R152: discard head entries whose cells are not dirty, at most `fuel` of them. -/
def MemoryPath.discardHeads (image : List Nat) : Nat → MemoryPath → MemoryPath
  | 0, p => p
  | fuel + 1, p =>
    match p.queue with
    | [] => p
    | a :: _ => if p.dirty.contains a then p else MemoryPath.discardHeads image fuel (p.dropHead image)

/-- R152: test the head, and each entry that becomes the head, for discard. -/
def MemoryPath.settleHead (p : MemoryPath) (image : List Nat) : MemoryPath :=
  MemoryPath.discardHeads image p.queue.length p

/-- R148, R152: clear a cell's dirty mark. -/
def MemoryPath.clean (p : MemoryPath) (a : Nat) : MemoryPath := { p with dirty := p.dirty.filter (· != a) }

namespace Ev

/-- R151: the marks of an event, made together in image order. Cells not in the image are left out (R144). -/
def commitMarks (e : Ev) : Ev :=
  { e.modifyPath fun p => p.markCells (sortedSet (e.marks.filterMap e.s.addressOf)) with marks := [] }

/-- R159: mark every REPORT cell of the image. -/
def markReports (e : Ev) : Ev :=
  { e with marks := e.s.reportCells.filterMap e.s.cellAt ++ e.marks }

/-- R158: mark every REPORT and DEMAND cell of the image. -/
def markImage (e : Ev) : Ev :=
  { e with marks := e.s.imageCells.filterMap e.s.cellAt ++ e.marks }

end Ev

/-! ## Notices (R156, R157) -/

/-- R156: the ring is full. -/
def Notices.ringFull (n : Notices) : Bool := (n.writeIndex - n.readIndex).toNat == Config.ringSlots

/-- R156: at an event that leaves staging non-empty while the ring is full, every staged record is dropped and counted. -/
def Ev.dropNotices (e : Ev) : Ev :=
  if e.s.notices.ringFull && !e.s.notices.staging.isEmpty then
    (e.modifyNotices fun n =>
      { n with staging := [], lost := n.lost + BitVec.ofNat 16 n.staging.length }).markGeneral 8
  else e

/-- R157: some unread slot holds a severity at or above the threshold. -/
def Notices.asserts (n : Notices) : Bool :=
  (List.range (n.writeIndex - n.readIndex).toNat).any fun i =>
    match n.severities.getD ((n.readIndex.toNat + i) % Config.ringSlots) none with
    | some severity => n.threshold ≤ severity
    | none => false

/-- R157: re-evaluate ATTN. -/
def Notices.evaluate (n : Notices) : Notices := { n with attn := n.asserts }

end Sys2Proof.Machine
end

