-- ==== Sys2Proof/Machine/Captures.lean ====
section
/-! DEFINITION. What a host access does when it is taken: reads (R146), guarded writes (R147), the merge, shaping and
capture of demand cells (R148) with each owner's share (R14, R15, R99, R115 to R117, R149), and the trigger events of the
List Runner (R150, R161, R162). -/

namespace Sys2Proof.Machine

/-! ## Shaping (R148, R175) -/

/-- R149: the values that NOTICE READ INDEX accepts: from the read index forward to the write index. -/
def Notices.accepts (n : Notices) (v : BitVec 16) : Bool :=
  (v - n.readIndex).toNat ≤ (n.writeIndex - n.readIndex).toNat

/-- R115: each byte of a LEVELS word saturated to 63. -/
def saturateLevels (w : Word) : Word :=
  packBytes (min 63 (byteOf w 0).toNat) (min 63 (byteOf w 1).toNat) (min 63 (byteOf w 2).toNat)
    (min 63 (byteOf w 3).toNat)

/-- R148, R175: the shaped word, or none where the write is rejected. -/
def shape (n : Notices) (d : Demand) (w : Word) : Option Word :=
  match d with
  | .mode => if w.toNat ≤ 2 then some w else none
  | .extraAir => some (BitVec.ofNat 32 (min 6 w.toNat))
  | .floor => some (BitVec.ofNat 32 (min 6 w.toNat))
  | .levels => some (saturateLevels w)
  | .allFull => some (if w = 0 then 0 else 1)
  | .readIndex =>
    let v : BitVec 16 := w.truncate 16
    if n.accepts v then some (v.zeroExtend 32) else none
  | .threshold => some (BitVec.ofNat 32 (min 3 w.toNat))

namespace Ev

/-! ## The owners' shares of a capture -/

/-- R14: a captured MODE. -/
def captureMode (e : Ev) (z : Nat) (mode : ZoneMode) : Ev :=
  let old := (e.s.zone z).mode
  let e1 := e.modifyZone z fun r => { r with mode := mode }
  let e2 :=
    if mode = .dormant then
      if (e1.s.zone z).fume = 0 && (e1.s.zone z).rest ≠ .asleep then e1.restZone z .asleep else e1
    else e1.activity z .mode
  let e3 := e2.rederiveAccess z
  if (old == .dormant) != (mode == .dormant) then e3.refreshZoneIndicators z else e3

/-- R15: a captured EXTRA AIR. -/
def captureExtraAir (e : Ev) (z v : Nat) : Ev :=
  (e.modifyZone z fun r => { r with extraAir := v }).forEach (e.s.servingGroups z) recomposeQ

/-- R99: a captured FLOOR. -/
def captureFloor (e : Ev) (g v : Nat) : Ev := (e.modifyGroup g fun r => { r with floor := v }).recomposeQ g

/-- R116: one copy rule acts on position `i` of its source, and echoes the level into the destination's LEVELS cell. -/
def copyLevel (e : Ev) (rule : CopyRule) (i level : Nat) : Ev :=
  let p := rule.start + (i - rule.first)
  ((e.modifyString rule.dest fun r => { r with levels := r.levels.set p level }).mark .string rule.dest (p / 4)).touchString
    rule.dest

/-- R116: the positions of LEVELS word `w` of string `k` that a rule copies: enabled, in its range and below the count. -/
def copiedPositions (s : State) (rule : CopyRule) (k w : Nat) (enables : ByteEnables) : List Nat :=
  ((List.range 4).filter fun i =>
    enables.getLsbD i && rule.first ≤ 4 * w + i && 4 * w + i ≤ rule.last && 4 * w + i < (s.stringConfig k).count).map
    fun i => 4 * w + i

/-- R115, R116: a captured LEVELS word of string `k`, position `w`. -/
def captureLevels (e : Ev) (k w : Nat) (word : Word) (enables : ByteEnables) : Ev :=
  let e1 := (e.forEach (List.range 4) fun e i =>
    e.modifyString k fun r => { r with levels := r.levels.set (4 * w + i) (byteOf word i).toNat }).touchString k
  e1.forEach (e.s.plant.copies.filter fun rule => rule.source == k) fun e rule =>
    e.forEach (copiedPositions e.s rule k w enables) fun e i =>
      e.copyLevel rule i ((e.s.lampString k).levels.getD i 0)

/-- R117: a captured ALL FULL. -/
def captureAllFull (e : Ev) (v : Nat) : Ev :=
  if e.s.allFull = v then e
  else
    (e.modify fun s => { s with allFull := v }).forEach (List.range e.s.stringCount) fun e k =>
      (e.deriveOverride k).touchString k

/-- R149: a captured NOTICE READ INDEX. -/
def captureReadIndex (e : Ev) (v : BitVec 16) : Ev :=
  if e.s.notices.readIndex = v then e
  else e.modifyNotices fun n => ({ n with readIndex := v }).evaluate

/-- R149: a captured ATTENTION THRESHOLD. -/
def captureThreshold (e : Ev) (v : Nat) : Ev :=
  e.modifyNotices fun n => ({ n with threshold := v }).evaluate

/-- R148: hand a shaped word to the block that owns the demand cell. -/
def captureDemand (e : Ev) (d : Demand) (c : CellRef) (w : Word) (enables : ByteEnables) : Ev :=
  match d with
  | .mode => match ZoneMode.ofCode w.toNat with
    | some m => e.captureMode c.object m
    | none => e
  | .extraAir => e.captureExtraAir c.object w.toNat
  | .floor => e.captureFloor c.object w.toNat
  | .levels => e.captureLevels c.object c.position w enables
  | .allFull => e.captureAllFull w.toNat
  | .readIndex => e.captureReadIndex (w.truncate 16)
  | .threshold => e.captureThreshold w.toNat

/-! ## Trigger events (R161, R162) -/

/-- R161: some word of the list span lies inside a window, or at or beyond the configured memory size. -/
def spanBlocked (s : State) (a : Nat) : Bool :=
  s.plant.memorySize ≤ a + Config.listSpan
    || s.plant.windows.any fun w => w.base ≤ a + Config.listSpan && a < w.base + 256 * w.blocks

/-- R161. -/
def triggerStart (e : Ev) (w : Word) : Ev :=
  if e.s.runner.phase = .idle then
    if spanBlocked e.s w.toNat then
      ((e.modifyRunner fun r => { r with entriesDone := 0, result := .refusedPlace }).markGeneral 4).post .listDone 0
        none (BitVec.ofNat 32 ListResult.refusedPlace.code)
    else
      (e.modifyRunner fun r =>
        { r with phase := .fetching [], entryIndex := 0, entryAddress := w.toNat, entriesDone := 0, result := .none,
                 abort := false }).markGeneral 4
  else
    ((e.modifyRunner fun r => { r with refusals := r.refusals + 1 }).markGeneral 11).post .triggerRefused 1 none w

/-- R162. -/
def triggerAbort (e : Ev) : Ev :=
  if e.s.runner.phase = .idle then e else e.modifyRunner fun r => { r with abort := true }

/-! ## Taking a host access (R142, R146 to R150) -/

/-- R142: present an access on the memory port. A write lands as it is presented (assumption 7). -/
def present (e : Ev) (a : Nat) (data : Option Word) (enables : ByteEnables) : Ev :=
  let e1 := e.modifyPath fun p => { p with port := .busy ⟨a, data, enables⟩ }
  match data with
  | some w => e1.modify fun s => { s with mem := s.mem.writeWord a w enables }
  | none => e1

/-- Answer a host read. -/
def answer (e : Ev) (a : Address) (w : Word) (fresh : Bool) : Ev :=
  e.modifyPath fun p => { p with hostAnswer := some ⟨a, w, fresh⟩ }

/-- R147: a guarded write. -/
def guardWrite (e : Ev) (a : Address) : Ev :=
  ((e.modifyNotices fun n => { n with guarded := n.guarded + 1 }).markGeneral 9).post .guarded 1 none (a.zeroExtend 32)

/-- R148: a write to a demand cell, at its grant. -/
def demandWrite (e : Ev) (d : Demand) (c : CellRef) (a : Address) (data : Word) (enables : ByteEnables) : Ev :=
  match shape e.s.notices d (mergeBytes (cellValue e.s c) data enables) with
  | none =>
    ((e.modifyNotices fun n => { n with rejected := n.rejected + 1 }).markGeneral 10).post .rejected 1 none
      (a.zeroExtend 32)
  | some w =>
    ((e.present a.toNat (some w) allBytes).modifyPath fun p =>
      (p.clean a.toNat).settleHead e.s.imageCells).captureDemand d c w enables

/-- A read answered fresh from the part's value (R146). -/
def freshRead (e : Ev) (a : Address) : Ev := e.answer a (e.s.valueAt a.toNat) true

/-- A read of memory at its grant (R146). -/
def memoryRead (e : Ev) (a : Address) (enables : ByteEnables) : Ev :=
  (e.answer a (e.s.mem.readWord a.toNat) false).present a.toNat none enables

/-- R142: an access that the part does not act on passes to memory. -/
def passHost (e : Ev) (h : HostAccess) : Ev :=
  match h.data with
  | none => e.memoryRead h.address h.enables
  | some w => e.present h.address.toNat (some w) h.enables

/-- R146 to R150: an access that is not plain is taken as the class of its cell states. -/
def takeByClass (e : Ev) (h : HostAccess) : Ev :=
  let a := h.address.toNat
  match h.data with
  | none => if e.s.path.dirty.contains a then e.freshRead h.address else e.passHost h
  | some w =>
    match e.s.cellAt a with
    | none => e.passHost h
    | some c =>
      match e.s.cellClass c with
      | .demand d => e.demandWrite d c h.address w h.enables
      | .report => e.guardWrite h.address
      | .log => e.guardWrite h.address
      | .start => (e.passHost h).triggerStart (mergeBytes 0 w h.enables)
      | .abort => (e.passHost h).triggerAbort
      | .spare => e.passHost h

/-- A host access is taken at its grant (R142): a plain one passes to memory (R169). -/
def takeHost (e : Ev) (h : HostAccess) : Ev := if h.plain then e.passHost h else e.takeByClass h

end Ev

/-- R146, R147: an access that is taken at arrival, without the port: a guarded write, or a read of a dirty cell. -/
def State.takenAtArrival (s : State) (h : HostAccess) : Bool :=
  match h.data with
  | none => s.path.dirty.contains h.address.toNat
  | some _ => s.classAt h.address.toNat == some .report || s.classAt h.address.toNat == some .log

end Sys2Proof.Machine
end

