-- ==== Sys2Proof/Machine/Events.lean ====
section
/-! DEFINITION. The end of every event: the grant pass over the claims handed in and the targets composed from it (R118,
R121, R136 to R138), the summary numbers (R66), the frames that idle links begin (R40, R104, R124, R125), the notices and
marks (R151, R155, R156) and the memory port's arbiter (R154). `occur` is one whole event. -/

namespace Sys2Proof.Machine

/-! ## The grant pass (R136 to R138) -/

/-- R137 step 5: the highest stage from P to Q that the remainder allows, or Q where Q is at or below P. -/
def grantedStage (power : Nat → Nat) (p q remainder : Nat) : Nat :=
  if q ≤ p then q
  else ((List.range (q + 1)).filter fun s => p ≤ s && power s - power p ≤ remainder).foldl max p

/-- R137 step 4: strings in index order; what remains is returned with the grants. -/
def grantStrings (b : Budget) : List Nat → Nat → Budget × Nat
  | [], remainder => (b, remainder)
  | k :: rest, remainder =>
    let c := b.strings.getD k ⟨0, 0, false⟩
    if c.disc ≤ remainder then
      grantStrings { b with strings := b.strings.set k { c with grant := true } } rest (remainder - c.disc)
    else grantStrings { b with strings := b.strings.set k { c with grant := false } } rest remainder

/-- R137 step 5: groups in index order. -/
def grantGroups (power : Nat → Nat → Nat) (b : Budget) : List Nat → Nat → Budget × Nat
  | [], remainder => (b, remainder)
  | g :: rest, remainder =>
    let c := b.groups.getD g ⟨0, 0, 0, 0, 0⟩
    let granted := grantedStage (power g) c.p c.q remainder
    grantGroups power { b with groups := b.groups.set g { c with g := granted } } rest
      (remainder - (power g granted - power g c.p))

/-- Set every configured string's flag and every configured group's stage alike. -/
def grantAll (b : Budget) (groups strings : Nat) (stage : GroupClaim → Nat) (flag : Bool) : Budget :=
  { b with
    groups := b.groups.mapIdx fun i c => if i < groups then { c with g := stage c } else c
    strings := b.strings.mapIdx fun i c => if i < strings then { c with grant := flag } else c }

namespace State

/-- R137 step 1: the sum of the protected claims. -/
def protectedSum (s : State) : Nat :=
  ((List.range s.groupCount).map fun g => (s.groupClaim g).prot).sum
    + ((List.range s.stringCount).map fun k => (s.stringClaim k).prot).sum

/-- R137: the grants of a pass over the cap and the claims as they stand. -/
def grants (s : State) : Budget :=
  let b := s.budget
  if b.cap = 0 then grantAll b s.groupCount s.stringCount (·.q) true
  else if b.cap < s.protectedSum then grantAll b s.groupCount s.stringCount (fun c => min c.p c.q) false
  else
    let strings := grantStrings b (List.range s.stringCount) (b.cap - s.protectedSum)
    (grantGroups s.power strings.1 (List.range s.groupCount) strings.2).1

/-- R137: the discretionary power that a pass has granted. -/
def discretionaryGranted (s : State) : Nat :=
  ((List.range s.stringCount).map fun k => if (s.stringClaim k).grant then (s.stringClaim k).disc else 0).sum
    + ((List.range s.groupCount).map fun g =>
        if (s.groupClaim g).p < (s.groupClaim g).g then
          s.power g (s.groupClaim g).g - s.power g (s.groupClaim g).p
        else 0).sum

/-- R138: the pass finds the remainder below 0. -/
def isOverCap (s : State) : Bool := s.budget.cap ≠ 0 && s.budget.cap < s.protectedSum

end State

namespace Ev

/-- R136 to R138, R140: one grant pass. -/
def grantPass (e : Ev) : Ev :=
  let exceeded := e.s.isOverCap
  let e1 := e.modifyBudget fun _ => e.s.grants
  let e2 := e1.modifyBudget fun b =>
    { b with overCap := exceeded, protectedPower := e1.s.protectedSum,
             grantedPower := e1.s.protectedSum + e1.s.discretionaryGranted }
  let e3 := if e2.s.budget.protectedPower = e.s.budget.protectedPower then e2 else e2.markGeneral 14
  let e4 := if e2.s.budget.grantedPower = e.s.budget.grantedPower then e3 else e3.markGeneral 15
  if exceeded && !e.s.budget.overCap then
    e4.post .overCap 2 none (BitVec.ofNat 32 (e.s.protectedSum - e.s.budget.cap))
  else e4

/-- R134: the Budget records a group's claims, with its P and Q. -/
def recordGroup (e : Ev) (g : Nat) : Ev :=
  let p := (e.s.group g).p
  let q := (e.s.group g).q
  e.modifyBudget fun b =>
    { b with groups := b.groups.modify g fun c =>
        { c with p := p, q := q, prot := e.s.power g p, disc := if p < q then e.s.power g q - e.s.power g p else 0 } }

/-- R118: the unbudgeted targets of a string. -/
def composeUnbudgeted (e : Ev) (k : Nat) : Ev :=
  let c := e.s.stringConfig k
  e.modifyString k fun r =>
    { r with luminaires := r.luminaires.mapIdx fun p l =>
        if p < c.count then { l with unbudgeted := unbudgetedTarget c r (r.levels.getD p 0) l.boost.isSome } else l }

/-- R121: the claims of a string as they now are. -/
def stringClaims (s : State) (k : Nat) : Nat × Nat :=
  let c := s.stringConfig k
  let r := s.lampString k
  (protectedClaim c r, wholeClaim c r - protectedClaim c r)

/-- R121: a claim of the string differs from the recorded one. -/
def claimChanged (s : State) (k : Nat) : Bool :=
  (stringClaims s k).1 ≠ (s.stringClaim k).prot || (stringClaims s k).2 ≠ (s.stringClaim k).disc

/-- R135: the Budget records a string's claims. -/
def recordString (e : Ev) (k : Nat) : Ev :=
  let claims := stringClaims e.s k
  (e.modifyBudget fun b =>
    { b with strings := b.strings.modify k fun c => { c with prot := claims.1, disc := claims.2 } }).mark .string k 20

/-- R121: a string takes the grant flag that the Budget holds for it. -/
def takeFlag (e : Ev) (k : Nat) : Ev :=
  let flag := (e.s.stringClaim k).grant
  if (e.s.lampString k).grant = flag then e
  else (e.modifyString k fun r => { r with grant := flag }).mark .string k 20

/-- The fade timer of a string, started now (R122). -/
def fadeTimer (s : State) (k : Nat) : Option Timer := s.startTimer (.fraction (s.stringConfig k).fadeRate)

/-- R122: some output of the string differs from its target. -/
def fading (s : State) (k : Nat) : Bool :=
  (List.range (s.stringConfig k).count).any fun p =>
    let l := (s.lampString k).luminaires.getD p Luminaire.reset
    l.output != l.target

/-- R122: start the fade timer where an output differs from its target and the timer is absent. -/
def startFade (e : Ev) (k : Nat) : Ev :=
  if fading e.s k && (e.s.lampString k).fadeTimer.isNone then
    e.modifyString k fun r => { r with fadeTimer := fadeTimer e.s k }
  else e

/-- R118, R122: compose the targets from the grant flag and act on the outputs. -/
def composeTargets (e : Ev) (k : Nat) : Ev :=
  let c := e.s.stringConfig k
  let r := e.s.lampString k
  let jump := !r.override && (List.range c.count).any fun p =>
    (r.luminaires.getD p Luminaire.reset).output < c.safety
  let e1 := e.modifyString k fun r =>
    { r with luminaires := r.luminaires.mapIdx fun p l =>
        if p < c.count then
          { l with target := targetLevel c r l.unbudgeted,
                   output := if r.override then l.output else max l.output c.safety }
        else l }
  let e2 := if jump then e1.setStringPending k else e1
  let e3 :=
    if e.s.lowestTarget k = e2.s.lowestTarget k && e.s.highestTarget k = e2.s.highestTarget k then e2
    else e2.mark .string k 17
  e3.startFade k

/-- R118, R121, R136: the claims handed in by this event are taken together, one pass is run over them, and the groups
and strings of the event compose their targets from its grants. -/
def settle (e : Ev) : Ev :=
  let groups := sortedSet e.groups
  let strings := (sortedSet e.strings).filter (· < e.s.stringCount)
  let e1 := e.forEach strings composeUnbudgeted
  let handed := strings.filter (claimChanged e1.s)
  let e2 := (e1.forEach handed recordString).forEach groups recordGroup
  let e3 := if e.pass || !groups.isEmpty || !handed.isEmpty then e2.grantPass else e2
  let e4 := ((e3.forEach groups takeGrant).forEach handed takeFlag).forEach strings composeTargets
  { e4 with strings := [], groups := [], pass := false }

/-! ## Summary numbers and idle links -/

/-- R66: an IDLE DP whose summary number differs from its face takes the new number. -/
def followSummary (e : Ev) (d : Nat) : Ev :=
  if (e.s.point d).state = .idle && (e.s.point d).face ≠ .summary (e.s.summaryNumber d) then
    e.setFace d .idle (.summary (e.s.summaryNumber d))
  else e

/-- R66: every configured DP. -/
def followSummaries (e : Ev) : Ev := e.forEach (List.range e.s.pointCount) followSummary

/-- R104: an idle line with a queue takes the group at its head and sends a command frame. -/
def startLine (e : Ev) (l : DriveLine) : Ev :=
  match (e.s.line l).activity, (e.s.line l).queue with
  | .idle, g :: _ =>
    let stage := match (e.s.group g).command with
      | some c => c.stage
      | none => (e.s.group g).k
    e.modifyLine l fun r => { r with activity := .sending g stage }
  | _, _ => e

/-- R124, R126: choose string `k`: its mark is cleared and its outputs are sampled. -/
def sendString (e : Ev) (k : Nat) : Ev :=
  e.modifyLamp fun l =>
    { l with frame := some (.string k (e.s.stringConfig k).lampAddress (stringFrameLevels (e.s.stringConfig k) (e.s.lampString k))),
             windowOpen := false, signRun := 0, lastString := k, stringPending := l.stringPending.set k false }

/-- R72, R124, R129: choose sign `d`: its mark is cleared and its face is sampled. -/
def sendSign (e : Ev) (d run : Nat) : Ev :=
  e.modifyLamp fun l =>
    { l with frame := some (.sign d (e.s.pointConfig d).signAddress (e.s.point d).face),
             windowOpen := false, signRun := run, lastSign := d, signPending := l.signPending.set d false }

/-- R124, R125: the lamp link chooses a frame when it is idle and a device is eligible. -/
def startLamp (e : Ev) : Ev :=
  if e.s.lampLink.frame.isSome then e
  else
    let sign := nextAbove e.s.lampLink.lastSign ((List.range e.s.pointCount).filter e.s.signEligible)
    let string := nextAbove e.s.lampLink.lastString ((List.range e.s.stringCount).filter e.s.stringEligible)
    match sign, string with
    | none, none => e
    | some d, none => e.sendSign d 0
    | none, some k => e.sendString k
    | some d, some k =>
      if e.s.lampLink.signRun < Config.signRunLimit then e.sendSign d (e.s.lampLink.signRun + 1) else e.sendString k

/-- R40: the idle outbound side of the bay link chooses the next pending bay and samples its mode. -/
def startBayLink (e : Ev) : Ev :=
  if e.s.bayLink.frame.isSome then e
  else
    match nextAbove e.s.bayLink.last ((List.range e.s.bayCount).filter e.s.indicatorPending) with
    | none => e
    | some b =>
      e.modifyBayLink fun l =>
        { l with frame := some (.indicator b (e.s.bayConfig b).indicatorAddress (e.s.bay b).indicator),
                 last := b, pending := l.pending.set b false }

/-- The frames that idle links begin in SERVICE. -/
def startLinks (e : Ev) : Ev :=
  if e.s.inService then ((e.forEach allLines startLine).startLamp).startBayLink else e

/-- The end of an event, up to its marks (assumption 15). -/
@[irreducible]
def commit (e : Ev) : Ev := (((e.settle.followSummaries).startLinks).dropNotices).commitMarks

end Ev

/-! ## The memory port (R142, R154) -/

namespace State

/-- R154: the head entry's cell is dirty. -/
def injectionClaim (s : State) : Bool :=
  match s.path.queue with
  | a :: _ => s.path.dirty.contains a
  | [] => false

/-- R154: the status claim. -/
def statusClaim (s : State) : Bool :=
  match s.runner.phase with
  | .statusDue _ => true
  | .closingDue .. => true
  | _ => false

/-- R154: the fetch claim. -/
def fetchClaim (s : State) : Bool :=
  match s.runner.phase with
  | .fetching _ => true
  | _ => false

/-- R154, R156: the notice claim. -/
def noticeClaim (s : State) : Bool := !s.notices.staging.isEmpty && !s.notices.ringFull

/-- R154: the part claim that comes first, if one waits. -/
def partClaim (s : State) : Option PartClaim :=
  if s.statusClaim then some .status
  else if s.noticeClaim then some .notice
  else if s.injectionClaim then some .injection
  else if s.fetchClaim then some .fetch
  else none

/-- R154: the port is granted to a part claim. The claim's own event then makes the access (assumption 6). -/
def grantPart (s : State) (c : PartClaim) : State :=
  { s with path := { s.path with port := .granted c, hostRun := 0 } }

/-- R154: the port is granted to the host, whose access is taken within the grant. -/
def grantHost (s : State) (h : HostAccess) (run : Nat) : State :=
  (((Ev.start { s with path := { s.path with hostWaiting := none, hostRun := run } }).takeHost h).commit).s

/-- R154: a free port is granted to a part claim where one waits. -/
def arbitratePart (s : State) : State :=
  if s.path.port = .free then
    match s.partClaim with
    | some c => s.grantPart c
    | none => s
  else s

/-- R154: the arbiter grants the port when it is free and a claim waits. -/
def arbitrate (s : State) : State :=
  if s.path.port = .free then
    match s.path.hostWaiting, s.partClaim with
    | none, _ => s.arbitratePart
    | some h, none => (s.grantHost h 0).arbitratePart
    | some h, some c =>
      if s.path.drain || Config.hostRunLimit ≤ s.path.hostRun then s.grantPart c
      else (s.grantHost h (s.path.hostRun + 1)).arbitratePart
  else s

end State

/-- One event, handled whole: what it does, its end, and the arbiter. -/
@[irreducible]
def finish (f : Ev → Ev) (s : State) : State := ((f (Ev.start s)).commit).s.arbitrate

/-- The outcome of an event that comes about. -/
def occur (f : Ev → Ev) (s : State) : Host.Outcome State Fault Refusal := .next (finish f s)

/-- The outcome of an event that comes about only under a condition; otherwise there is no such event and nothing
changes (assumption 2). -/
def occurIf (c : Bool) (f : Ev → Ev) (s : State) : Host.Outcome State Fault Refusal :=
  if c then occur f s else .next s

end Sys2Proof.Machine
end

