-- ==== Sys2Proof/Machine/Air.lean ====
section
/-! DEFINITION. The Air Unit's events: polls and their outcomes (R79 to R82), gas evaluation and blindness (R84 to R88) and
fall-hold expiries (R85). -/

namespace Sys2Proof.Machine

namespace Ev

/-- R83: the fall-hold timer of a zone, started now. -/
def fallHold (s : State) (z : Nat) : Option Timer := s.startTimer (.seconds (s.zoneConfig z).fallHold)

/-- R84, R85: evaluate one gas of a zone against its current gas value. -/
def evaluateGas (e : Ev) (z : Nat) (gas : Gas) : Ev :=
  let r := e.s.zoneGas z
  match r.value gas with
  | some v =>
    let out := ((e.s.zoneConfig z).marks gas).evaluate v (r.stage gas) (r.timer gas) (fallHold e.s z)
    let e1 := e.modifyGas z fun r => r.setStage gas out.1 out.2
    if r.stage gas = out.1 then e1 else e1.mark .zone z 3
  | none => e

/-- R87: a zone becomes blind. -/
def becomeBlind (e : Ev) (z : Nat) : Ev :=
  let blind := (e.s.zoneConfig z).blindStage
  (((e.modifyGas z fun r =>
    { r with coValue := none, no2Value := none, coStage := max r.coStage blind, no2Stage := max r.no2Stage blind,
             coTimer := none, no2Timer := none, blind := true }).mark .zone z 4).mark .zone z 3).deriveFume z

/-- R82: the zone's gas values taken afresh; a change marks GAS. -/
def takeGasValues (e : Ev) (z : Nat) : Ev :=
  let co := e.s.gasValue z .co
  let no2 := e.s.gasValue z .no2
  let e1 := e.modifyGas z fun r => { r with coValue := co, no2Value := no2 }
  if (e.s.zoneGas z).coValue = co && (e.s.zoneGas z).no2Value = no2 then e1 else e1.mark .zone z 4

/-- R88: a zone stops being blind. -/
def clearBlind (e : Ev) (z : Nat) : Ev :=
  if (e.s.zoneGas z).blind then
    ((e.modifyGas z fun r => { r with blind := false }).mark .zone z 3).mark .zone z 4
  else e

/-- R82: derive a zone's gas values afresh, enter or leave blindness, evaluate its gases and derive its fume stage. -/
def evaluateZone (e : Ev) (z : Nat) : Ev :=
  if (e.s.freshSensors z).isEmpty then
    if (e.s.zoneGas z).blind then e else e.becomeBlind z
  else
    (((((e.takeGasValues z).clearBlind z).evaluateGas z .co).evaluateGas z .no2).deriveFume z)

/-- R80: a valid reply from sensor `n`. -/
def validReply (e : Ev) (n co no2 : Nat) : Ev :=
  let r := e.s.sensor n
  let newCo := some (min Config.coFullScale co)
  let newNo2 := some (min Config.no2FullScale no2)
  let e1 := (e.modifySensor n fun r =>
    { r with co := newCo, no2 := newNo2, lastValid := some e.s.partTime, ageStopped := false, misses := 0,
             health := .fresh }).mark .sensor n 2
  let e2 := if r.co = newCo && r.no2 = newNo2 then e1 else e1.mark .sensor n 1
  let e3 := if r.health = .fresh && r.misses = 0 then e2 else e2.mark .sensor n 0
  let e4 := if r.health = .fresh then e3 else e3.post .sensorBack 0 (some n) 0
  e4.evaluateZone (e.s.sensorConfig n).zone

/-- R81: a reply of sensor `n` with the fault flag. -/
def faultReply (e : Ev) (n : Nat) : Ev :=
  let r := e.s.sensor n
  let e1 := e.modifySensor n fun r => { r with misses := 0, health := .fault }
  let e2 := if r.health = .fault && r.misses = 0 then e1 else e1.mark .sensor n 0
  let e3 := if r.health = .fault then e2 else e2.post .sensorFault 2 (some n) 0
  if r.health = .fresh then e3.evaluateZone (e.s.sensorConfig n).zone else e3

/-- R81: sensor `n` misses. -/
def missReply (e : Ev) (n : Nat) : Ev :=
  let r := e.s.sensor n
  let misses := min 3 (r.misses + 1)
  let stale := misses = 3 && r.health ≠ .stale
  let e1 := e.modifySensor n fun r => { r with misses := misses, health := if stale then .stale else r.health }
  let e2 := if r.misses = misses && !stale then e1 else e1.mark .sensor n 0
  let e3 := if stale then e2.post .sensorStale 2 (some n) 0 else e2
  if stale && r.health = .fresh then e3.evaluateZone (e.s.sensorConfig n).zone else e3

/-- R79: the sensor polled after sensor `n`. -/
def nextSensor (s : State) (n : Nat) : Nat := if n + 1 < s.sensorCount then n + 1 else 0

/-- R79: the link sends the next poll. -/
def nextPoll (e : Ev) (n : Nat) : Ev := e.modify fun s => { s with airLink := some ⟨nextSensor s n, false⟩ }

/-- R85: a fall-hold timer expires: the gas stage falls by one, and the timer may start again. -/
def fallHoldExpires (e : Ev) (z : Nat) (gas : Gas) : Ev :=
  let r := e.s.zoneGas z
  let stage := r.stage gas - 1
  let again := 0 < stage && (r.value gas).any fun v => v < ((e.s.zoneConfig z).marks gas).fall stage
  ((e.modifyGas z fun r => r.setStage gas stage (if again then fallHold e.s z else none)).mark .zone z 3).deriveFume z

end Ev

/-- POLL_SENT (R79): the answer window opens when the frame has been sent. -/
def execPollSent (s : State) : Host.Outcome State Fault Refusal :=
  match s.airLink with
  | some ⟨n, false⟩ => occurIf s.inService (fun e => e.modify fun s => { s with airLink := some ⟨n, true⟩ }) s
  | _ => .next s

/-- POLL_REPLY (R79 to R82): a reply with another air address is discarded, and so is one with no window open. -/
def execPollReply (address : Nat) (co no2 : BitVec 16) (fault : Bool) (s : State) : Host.Outcome State Fault Refusal :=
  match s.airLink with
  | some ⟨n, true⟩ =>
    occurIf (s.inService && address == (s.sensorConfig n).airAddress)
      (fun e => (if fault then e.faultReply n else e.validReply n co.toNat no2.toNat).nextPoll n) s
  | _ => .next s

/-- POLL_MISS (R79, R81). -/
def execPollMiss (s : State) : Host.Outcome State Fault Refusal :=
  match s.airLink with
  | some ⟨n, true⟩ => occurIf s.inService (fun e => (e.missReply n).nextPoll n) s
  | _ => .next s

/-- FALL_HOLD_EXPIRY (R85). -/
def execFallHoldExpiry (zone : Nat) (gas : Gas) (s : State) : Host.Outcome State Fault Refusal :=
  occurIf (s.inService && ((s.zoneGas zone).timer gas).isSome) (fun e => e.fallHoldExpires zone gas) s

end Sys2Proof.Machine
end

