-- ==== Sys2Proof/Machine/Bays.lean ====
section
/-! DEFINITION. The Bay Table's events: sensor reports (R22 to R26), debounce, silence and hold expiries (R27, R28, R34)
and the outbound side of the bay link (R40). -/

namespace Sys2Proof.Machine

/-- R22: the configured bay with a sensor address. -/
def State.bayOfSensor (s : State) (address : Nat) : Option Nat :=
  (List.range s.bayCount).find? fun b => (s.bayConfig b).sensorAddress == address

/-- R23: a report is resynchronising. -/
def Bay.resynchronises (b : Bay) (fault : Bool) : Bool := !fault && (!b.live || b.reasonSensor)

/-- R25: a debounce in a direction, started now. -/
def State.startDebounce (s : State) (d : Direction) : Option Debounce :=
  some ⟨d, ⟨s.partTime, .seconds (match d with
    | .arrive => s.plant.arriveDebounce
    | .depart => s.plant.departDebounce)⟩⟩

/-- R25: a CHANGE report, neither faulty nor resynchronising. -/
def State.debounceOnChange (s : State) (b : Bay) (p : Presence) : Option Debounce :=
  match b.occupied, p, b.debounce with
  | false, .present, none => s.startDebounce .arrive
  | false, .present, some d => some d
  | false, .empty, _ => none
  | true, .empty, none => s.startDebounce .depart
  | true, .empty, some d => some d
  | true, .present, _ => none

/-- R26: an ALIVE report, neither faulty nor resynchronising. -/
def State.debounceOnAlive (s : State) (b : Bay) (p : Presence) : Option Debounce :=
  match b.debounce with
  | some d => some d
  | none =>
    match b.occupied, p with
    | false, .present => s.startDebounce .arrive
    | true, .empty => s.startDebounce .depart
    | _, _ => none

namespace Ev

/-- R23: a report makes the bay LIVE and restarts its silence timer. -/
def hear (e : Ev) (b : Nat) : Ev :=
  e.modifyBay b fun r => { r with live := true, silence := e.s.startTimer (.seconds Config.silenceSeconds) }

/-- R24: a report with the fault flag. -/
def faultReport (e : Ev) (b : Nat) : Ev :=
  let e1 := e.modifyBay b fun r => { r with reasonSensor := true, debounce := none }
  if (e.s.bay b).reasonSensor then e1 else (e1.mark .bay b 0).post .bayOut 1 (some b) reasonSensorCode

/-- R23, R24: a resynchronising report takes its presence at once, and removes SENSOR. -/
def resynchronise (e : Ev) (b : Nat) (p : Presence) : Ev :=
  let e1 := e.modifyBay b fun r => { r with reasonSensor := false, occupied := p == .present }
  if (e.s.bay b).reasonSensor then e1.mark .bay b 0 else e1

/-- R23 to R26: one report at its bay. -/
def bayReport (e : Ev) (b : Nat) (p : Presence) (fault : Bool) (kind : ReportKind) : Ev :=
  let before := e.s.bay b
  let e1 := e.hear b
  (if fault then e1.faultReport b
    else if before.resynchronises fault then e1.resynchronise b p
    else match kind with
      | .change => e1.modifyBay b fun r => { r with debounce := e1.s.debounceOnChange r p }
      | .alive => e1.modifyBay b fun r => { r with debounce := e1.s.debounceOnAlive r p }).rederiveBay b

/-- R22: a report with no configured bay's address. -/
def strayReport (e : Ev) : Ev := (e.modify fun s => { s with stray := s.stray + 1 }).markGeneral 17

/-- R27: a debounce expires. -/
def debounceExpires (e : Ev) (b : Nat) (d : Direction) : Ev :=
  (e.modifyBay b fun r => { r with debounce := none, occupied := d == .arrive }).rederiveBay b

/-- R28: a silence timer expires. -/
def silenceExpires (e : Ev) (b : Nat) : Ev :=
  (e.modifyBay b fun r => { r with live := false, occupied := false, debounce := none, silence := none }).rederiveBay b

/-- R34: a hold lapses. -/
def holdLapses (e : Ev) (b : Nat) : Ev := ((e.removeHold b).post .holdLapsed 1 (some b) 0).rederiveBay b

end Ev

/-- BAY_REPORT (R22 to R26). -/
def execBayReport (address : Nat) (presence : Presence) (fault : Bool) (kind : ReportKind) (s : State) :
    Host.Outcome State Fault Refusal :=
  occurIf s.inService
    (fun e => match s.bayOfSensor address with
      | some b => e.bayReport b presence fault kind
      | none => e.strayReport) s

/-- DEBOUNCE_EXPIRY (R27). -/
def execDebounceExpiry (bay : Nat) (s : State) : Host.Outcome State Fault Refusal :=
  match (s.bay bay).debounce with
  | some d => occurIf s.inService (fun e => e.debounceExpires bay d.direction) s
  | none => .next s

/-- SILENCE_EXPIRY (R28). -/
def execSilenceExpiry (bay : Nat) (s : State) : Host.Outcome State Fault Refusal :=
  occurIf (s.inService && (s.bay bay).silence.isSome) (fun e => e.silenceExpires bay) s

/-- HOLD_LAPSE (R34): part time has reached the hold's expiry. -/
def execHoldLapse (bay : Nat) (s : State) : Host.Outcome State Fault Refusal :=
  match s.hold bay with
  | some h => occurIf (s.inService && s.reached h.expiry) (fun e => e.holdLapses bay) s
  | none => .next s

/-- R40: an indicator frame is being sent. -/
def BayLink.sendsIndicator (l : BayLink) : Bool :=
  match l.frame with
  | some (.indicator ..) => true
  | _ => false

/-- INDICATOR_FRAME_DONE (R40): the side is idle, and chooses again at the end of the event. -/
def execIndicatorFrameDone (s : State) : Host.Outcome State Fault Refusal :=
  occurIf (s.inService && s.bayLink.sendsIndicator) (fun e => e.modifyBayLink fun l => { l with frame := none }) s

end Sys2Proof.Machine
end

