-- ==== Sys2Proof/Machine/Drives.lean ====
section
/-! DEFINITION. The Drive Unit's events: frames, answers and windows of the drive lines (R104), judgement (R105 to R107),
the step-down and retry timers (R102, R108) and grants taken as events of their own (R100). -/

namespace Sys2Proof.Machine

namespace Ev

/-- R102: the step-down timer, restarted. -/
def restartStep (e : Ev) (g : Nat) : Ev :=
  e.modifyGroup g fun r => { r with stepTimer := e.s.startTimer (.seconds (e.s.groupConfig g).stepDown) }

/-- R106 step 2: the failure count clears, and a faulted group recovers. -/
def recover (e : Ev) (g : Nat) : Ev :=
  let r := e.s.group g
  let e1 := e.modifyGroup g fun r => { r with failureCount := 0, faulted := false }
  let e2 := if r.failureCount = 0 then e1 else e1.mark .fan g 4
  if r.faulted then e2.post .driveRecovered 1 (some g) 0 else e2

/-- R106, R107, R109: the resend of K that the resend mark asks for. -/
def resendNow (e : Ev) (g : Nat) : Ev := (e.modifyGroup g fun r => { r with resend := false }).issue g (e.s.group g).k

/-- R106: a good judgement of a command for `stage`. -/
def judgeGood (e : Ev) (g stage : Nat) : Ev :=
  let e1 := e.modifyGroup g fun r => { r with command := none }
  let e2 := if (e.s.group g).k = stage then e1 else (e1.modifyGroup g fun r => { r with k := stage }).restartStep g
  let e3 := ((e2.recover g).modifyGroup g fun r => { r with state := .ready }).mark .fan g 1
  if (e3.s.group g).resend then e3.resendNow g else e3.issueNext g

/-- R107: the group waits to repeat a command. -/
def waitRetry (e : Ev) (g : Nat) (st : CommandState) (seconds : Nat) : Ev :=
  (e.modifyGroup g fun r => { r with state := st, retryTimer := e.s.startTimer (.seconds seconds) }).mark .fan g 1

/-- R107: a bad judgement of a command. -/
def judgeBad (e : Ev) (g : Nat) (c : Command) : Ev :=
  let e1 := (e.modifyGroup g fun r =>
    { r with command := none, failedCommands := r.failedCommands + 1,
             failureCount := min 255 (r.failureCount + 1) }).mark .fan g 4
  let r := e1.s.group g
  if r.resend then e1.resendNow g
  else if r.faulted then e1.waitRetry g .fault Config.driveFaultSeconds
  else if 3 ≤ r.failureCount then
    ((e1.modifyGroup g fun r => { r with faulted := true }).waitRetry g .fault Config.driveFaultSeconds).post .driveFault 3
      (some g) (answersWord c.answers)
  else e1.waitRetry g .retryWait Config.driveRetrySeconds

/-- R104: record the outcome of a line in the current command and in the last line answers. -/
def recordOutcome (e : Ev) (l : DriveLine) (g : Nat) (o : LineOutcome) : Ev :=
  (e.modifyGroup g fun r =>
    { r with answers := r.answers.set l o,
             command := r.command.map fun c => { c with outcomes := c.outcomes.set l (some o) } }).mark .fan g 3

/-- R105: judge the group's command once every line has its outcome. -/
def judge (e : Ev) (g : Nat) : Ev :=
  let lines := (e.s.groupConfig g).lines
  match (e.s.group g).command with
  | some c => if c.judged lines then (if c.good lines then e.judgeGood g c.stage else e.judgeBad g c) else e
  | none => e

/-- R104: a line's transaction with a group ends in an outcome: the group leaves the head of the queue. -/
def lineOutcome (e : Ev) (l : DriveLine) (g : Nat) (o : LineOutcome) : Ev :=
  ((e.modifyLine l fun r => { r with queue := r.queue.tail, activity := .idle }).recordOutcome l g o).judge g

/-- R108: a retry always sends a command: the next stage, or K. -/
def retry (e : Ev) (g : Nat) : Ev :=
  (e.modifyGroup g fun r => { r with retryTimer := none }).issue g
    ((e.s.group g).nextStage.getD (e.s.group g).k)

end Ev

/-- R104: the outcome of an answer. -/
def answerOutcome : DriveResult → LineOutcome
  | .accept => .positive
  | .refuse code => .negative code

/-- DRIVE_FRAME_SENT (R104): the answer window opens. -/
def execDriveFrameSent (line : DriveLine) (s : State) : Host.Outcome State Fault Refusal :=
  match (s.line line).activity with
  | .sending g _ => occurIf s.inService (fun e => e.modifyLine line fun r => { r with activity := .window g }) s
  | _ => .next s

/-- DRIVE_ANSWER (R104): an answer with another drive address is discarded, and so is one with no window open. -/
def execDriveAnswer (line : DriveLine) (address : Nat) (result : DriveResult) (s : State) :
    Host.Outcome State Fault Refusal :=
  match (s.line line).activity with
  | .window g =>
    occurIf (s.inService && address == (s.groupConfig g).driveAddress)
      (fun e => e.lineOutcome line g (answerOutcome result)) s
  | _ => .next s

/-- DRIVE_WINDOW_EXPIRY (R104). -/
def execDriveWindowExpiry (line : DriveLine) (s : State) : Host.Outcome State Fault Refusal :=
  match (s.line line).activity with
  | .window g => occurIf s.inService (fun e => e.lineOutcome line g .silent) s
  | _ => .next s

/-- STEP_DOWN_TIMER_EXPIRY (R101, R102). -/
def execStepDownTimerExpiry (group : Nat) (s : State) : Host.Outcome State Fault Refusal :=
  occurIf (s.inService && (s.group group).stepTimer.isSome)
    (fun e => (e.modifyGroup group fun r => { r with stepTimer := none }).issueNext group) s

/-- R108: the group waits for its retry timer. -/
def Group.waits (g : Group) : Bool := g.retryTimer.isSome && (g.state == .retryWait || g.state == .fault)

/-- RETRY_TIMER_EXPIRY (R108). -/
def execRetryTimerExpiry (group : Nat) (s : State) : Host.Outcome State Fault Refusal :=
  occurIf (s.inService && (s.group group).waits) (fun e => e.retry group) s

/-- FAN_GRANT_TAKEN (R100, R136): the Budget holds another granted stage for the group than the group does. -/
def execFanGrantTaken (group : Nat) (s : State) : Host.Outcome State Fault Refusal :=
  occurIf (s.inService && group < s.groupCount && (s.groupClaim group).g != (s.group group).g)
    (fun e => e.takeGrant group) s

end Sys2Proof.Machine
end

