-- ==== Sys2Proof/Machine/Guidance.lean ====
section
/-! DEFINITION. The Guidance Unit's events: passages with their search, promise and face (R46, R49 to R58), promise lapses
(R64), show timers (R65) and sign retries (R74). -/

namespace Sys2Proof.Machine

/-! ## The search (R52, R55, R56) -/

/-- R52: note the zone of a paced entry, once for the passage. -/
def notePaced (entry : ChainEntry) (seen : List Nat) : List Nat :=
  match entry.target with
  | .zone z => if seen.contains z then seen else seen ++ [z]
  | .point _ => seen

/-- R55: the chain entries in order; the first eligible one is taken. The second part collects the zones found paced. -/
def searchOrdered (s : State) (c : BayClass) : List ChainEntry → List Nat → Option ChainEntry × List Nat
  | [], seen => (none, seen)
  | entry :: rest, seen =>
    match s.examine entry c with
    | .eligible => (some entry, seen)
    | .paced => searchOrdered s c rest (notePaced entry seen)
    | .no => searchOrdered s c rest seen

/-- R56: the entry a phase names, if it names one. -/
def phaseEntry (cfg : PointConfig) (phase : Nat) : Option ChainEntry :=
  match cfg.weights.getD phase none with
  | some i => cfg.chain[i]?
  | none => none

/-- R56: the phases in order; the first whose entry is eligible is taken, with its phase. -/
def searchWeighted (s : State) (cfg : PointConfig) (c : BayClass) :
    List Nat → List Nat → Option (ChainEntry × Nat) × List Nat
  | [], seen => (none, seen)
  | phase :: rest, seen =>
    match phaseEntry cfg phase with
    | none => searchWeighted s cfg c rest seen
    | some entry =>
      match s.examine entry c with
      | .eligible => (some (entry, phase), seen)
      | .paced => searchWeighted s cfg c rest (notePaced entry seen)
      | .no => searchWeighted s cfg c rest seen

/-- R56: the 32 phases from the pointer on. -/
def phasesFrom (pointer : Nat) : List Nat := (List.range 32).map fun i => (pointer + i) % 32

/-- R55, R56: one search of DP `d` for a class: the entry found with the pointer after it, and the zones found paced. -/
def search (s : State) (d : Nat) (c : BayClass) (seen : List Nat) : Option (ChainEntry × Nat) × List Nat :=
  let cfg := s.pointConfig d
  match cfg.policy with
  | .ordered =>
    let r := searchOrdered s c cfg.chain seen
    (r.1.map fun entry => (entry, (s.point d).pointer), r.2)
  | .weighted =>
    let r := searchWeighted s cfg c (phasesFrom (s.point d).pointer) seen
    (r.1.map fun x => (x.1, (x.2 + 1) % 32), r.2)

/-- What a passage's searches give: the entry, the pointer after it and the class used, and the zones found paced. -/
structure Choice where
  found : Option (ChainEntry × Nat × BayClass)
  paced : List Nat
deriving DecidableEq, Repr

/-- R49 step 3: the passage class, and ORDINARY where it finds nothing. -/
def choose (s : State) (d : Nat) (c : BayClass) : Choice :=
  let first := search s d c []
  match first.1 with
  | some (entry, pointer) => ⟨some (entry, pointer, c), first.2⟩
  | none =>
    if c = .ordinary then ⟨none, first.2⟩
    else
      let second := search s d .ordinary first.2
      ⟨second.1.map fun x => (x.1, x.2, .ordinary), second.2⟩

namespace Ev

/-- R52: each zone found paced counts once. -/
def countPaced (e : Ev) (z : Nat) : Ev :=
  (e.modifyZone z fun r => { r with paced := r.paced + 1 }).mark .zone z 11

/-- R56: the pointer moves when a phase is taken. -/
def movePointer (e : Ev) (d pointer : Nat) : Ev :=
  if (e.s.pointConfig d).policy = .weighted then
    (e.modifyPoint d fun p => { p with pointer := pointer }).mark .point d 4
  else e

/-- R54: the lifetime of a promise made at DP `d`. -/
def lifetime (s : State) (d : Nat) : Target → Nat
  | .zone z => (s.zoneConfig z).promiseLifetime
  | .point _ => (s.pointConfig d).transitLifetime

/-- R54: make a promise. -/
def makePromise (e : Ev) (d : Nat) (t : Target) (c : BayClass) : Ev :=
  (e.modify fun s => { s with pool := s.pool ++ [⟨t, c, s.after (lifetime s d t)⟩] }).markPromise t

/-- R57: the pool has no entry free. -/
def poolFull (e : Ev) (d : Nat) : Ev :=
  ((e.modifyPoint d fun p => { p with poolEmpty := p.poolEmpty + 1 }).mark .point d 2).post .poolEmpty 2 (some d) 0

/-- R54, R57: a promise, or none where the pool is full; either way a zone's last promise time is set. -/
def promiseTo (e : Ev) (d : Nat) (t : Target) (c : BayClass) : Ev :=
  let e1 := if e.s.pool.length < Config.promisePool then e.makePromise d t c else e.poolFull d
  match t with
  | .zone z => e1.modifyZone z fun r => { r with lastPromise := e.s.partTime }
  | .point _ => e1

/-- R49 step 5: the Zone Table takes the promise as activity and re-derives access. -/
def tellZone (e : Ev) (t : Target) : Ev :=
  match t with
  | .zone z => (e.activity z .promise).rederiveAccess z
  | .point _ => e

/-- R44, R49: the show timer, for the DP's show time. -/
def startShow (e : Ev) (d : Nat) : Ev :=
  e.modifyPoint d fun p => { p with showTimer := e.s.startTimer (.seconds (e.s.pointConfig d).showTime) }

/-- R49 steps 4 to 6, an entry found. -/
def direct (e : Ev) (d : Nat) (entry : ChainEntry) (c : BayClass) (slow : Bool) : Ev :=
  let e1 := e.promiseTo d entry.target c
  let number := e1.s.arrowNumber entry.target c
  ((e1.tellZone entry.target).setFace d .showing (.arrow entry.arrow number slow entry.target)).startShow d

/-- R58: no entry found. -/
def turnAway (e : Ev) (d : Nat) : Ev :=
  (((e.modifyPoint d fun p => { p with turnedAway := p.turnedAway + 1 }).mark .point d 2).setFace d .fullShown
    .full).startShow d

/-- R60: a passage consumes a transit promise to its DP, if it has one. -/
def consumeTransit (e : Ev) (d : Nat) (c : BayClass) : Ev :=
  if e.s.pool.any (fun p => p.target == .point d) then e.consume (.point d) c else e

/-- R46: a passage is counted. -/
def countPassage (e : Ev) (d : Nat) : Ev :=
  (e.modifyPoint d fun p => { p with passages := p.passages + 1 }).mark .point d 1

/-- R49: a passage of class `c` at DP `d`. -/
def passage (e : Ev) (d : Nat) (c : BayClass) : Ev :=
  let e1 := e.countPassage d
  if (e1.s.point d).state = .disabled then e1
  else
    let e2 := e1.consumeTransit d c
    let choice := choose e2.s d c
    let e3 := e2.forEach choice.paced countPaced
    match choice.found with
    | some (entry, pointer, used) => (e3.movePointer d pointer).direct d entry used (c != .ordinary)
    | none => e3.turnAway d

/-- R64: the promise at a place of the pool lapses. -/
def promiseLapses (e : Ev) (place : Nat) (t : Target) : Ev :=
  let e1 := (e.modify fun s => { s with pool := s.pool.eraseIdx place }).markPromise t
  match t with
  | .zone z => ((e1.modifyZone z fun r => { r with lapsed := r.lapsed + 1 }).mark .zone z 12).rederiveAccess z
  | .point _ => e1

end Ev

/-- R46: the class of a detector input, none where the input is UNUSED. -/
def State.inputClass (s : State) (d : Nat) : DetectorInput → Option BayClass
  | .a => some .ordinary
  | .b => (s.pointConfig d).inputB

/-- PASSAGE (R46, R49). -/
def execPassage (point : Nat) (input : DetectorInput) (s : State) : Host.Outcome State Fault Refusal :=
  match s.inputClass point input with
  | some c => occurIf (s.inService && point < s.pointCount) (fun e => e.passage point c) s
  | none => .next s

/-- PROMISE_LAPSE (R64): part time has reached the expiry of the promise at `place`, oldest first. -/
def execPromiseLapse (place : Nat) (s : State) : Host.Outcome State Fault Refusal :=
  match s.pool[place]? with
  | some p => occurIf (s.inService && s.reached p.expiry) (fun e => e.promiseLapses place p.target) s
  | none => .next s

/-- SHOW_TIMER_EXPIRY (R65). -/
def execShowTimerExpiry (point : Nat) (s : State) : Host.Outcome State Fault Refusal :=
  occurIf (s.inService && (s.point point).showTimer.isSome) (fun e => e.toIdle point) s

/-- SIGN_RETRY_TIMER_EXPIRY (R74). -/
def execSignRetryTimerExpiry (point : Nat) (s : State) : Host.Outcome State Fault Refusal :=
  occurIf (s.inService && (s.point point).retryTimer.isSome)
    (fun e => (e.modifyPoint point fun p => { p with retryTimer := none }).setSignPending point) s

end Sys2Proof.Machine
end

