-- ==== Sys2Proof/Machine/HostPort.lean ====
section
/-! DEFINITION. The Memory Path's events: the host's accesses (R142, R146 to R150), the completion of an access on the
memory port (R154), injections (R152) and notice words (R156). A host access is taken as its address's cell states;
the twelve rows of the table name the same arrival by the cell it meets (assumption 5). -/

namespace Sys2Proof.Machine

/-! ## Host accesses -/

/-- R142: a host access that needs the port waits for its grant. -/
def Ev.hostWaits (e : Ev) (h : HostAccess) : Ev := e.modifyPath fun p => { p with hostWaiting := some h }

/-- R142: a host access arrives. The host port carries one access at a time, so none arrives while one waits; one whose
access already stands on the memory port waits no longer, and another may arrive (assumption 29, the model's choice). -/
def hostArrives (h : HostAccess) (s : State) : Host.Outcome State Fault Refusal :=
  occurIf s.path.hostWaiting.isNone
    (fun e => if s.takenAtArrival h then e.takeHost h else e.hostWaits h) s

/-- R142: a host read of the word at an address. -/
def hostReads (a : Address) (enables : ByteEnables) (s : State) : Host.Outcome State Fault Refusal :=
  hostArrives ⟨a, none, enables, false⟩ s

/-- R142: a host write to the word at an address. -/
def hostWrites (a : Address) (data : Word) (enables : ByteEnables) (s : State) : Host.Outcome State Fault Refusal :=
  hostArrives ⟨a, some data, enables, false⟩ s

/-- HOST_READ_CELL (R146). -/
def execHostReadCell (a : Address) (enables : ByteEnables) (s : State) : Host.Outcome State Fault Refusal :=
  hostReads a enables s

/-- GUARDED_WRITE (R147). -/
def execGuardedWrite (a : Address) (data : Word) (enables : ByteEnables) (s : State) :
    Host.Outcome State Fault Refusal := hostWrites a data enables s

/-- MODE_WRITE (R14, R148). -/
def execModeWrite (a : Address) (data : Word) (enables : ByteEnables) (s : State) :
    Host.Outcome State Fault Refusal := hostWrites a data enables s

/-- EXTRA_AIR_WRITE (R15, R148). -/
def execExtraAirWrite (a : Address) (data : Word) (enables : ByteEnables) (s : State) :
    Host.Outcome State Fault Refusal := hostWrites a data enables s

/-- FLOOR_WRITE (R99, R148). -/
def execFloorWrite (a : Address) (data : Word) (enables : ByteEnables) (s : State) :
    Host.Outcome State Fault Refusal := hostWrites a data enables s

/-- LEVELS_WRITE (R115, R116, R148). -/
def execLevelsWrite (a : Address) (data : Word) (enables : ByteEnables) (s : State) :
    Host.Outcome State Fault Refusal := hostWrites a data enables s

/-- ALL_FULL_WRITE (R117, R148). -/
def execAllFullWrite (a : Address) (data : Word) (enables : ByteEnables) (s : State) :
    Host.Outcome State Fault Refusal := hostWrites a data enables s

/-- NOTICE_READ_INDEX_WRITE (R148, R149). -/
def execNoticeReadIndexWrite (a : Address) (data : Word) (enables : ByteEnables) (s : State) :
    Host.Outcome State Fault Refusal := hostWrites a data enables s

/-- ATTENTION_THRESHOLD_WRITE (R148, R149). -/
def execAttentionThresholdWrite (a : Address) (data : Word) (enables : ByteEnables) (s : State) :
    Host.Outcome State Fault Refusal := hostWrites a data enables s

/-- COMMAND_START (R150, R161). -/
def execCommandStart (a : Address) (data : Word) (enables : ByteEnables) (s : State) :
    Host.Outcome State Fault Refusal := hostWrites a data enables s

/-- COMMAND_ABORT (R150, R162). -/
def execCommandAbort (a : Address) (data : Word) (enables : ByteEnables) (s : State) :
    Host.Outcome State Fault Refusal := hostWrites a data enables s

/-- HOST_WRITE_PASS (R142, R150). -/
def execHostWritePass (a : Address) (data : Word) (enables : ByteEnables) (s : State) :
    Host.Outcome State Fault Refusal := hostWrites a data enables s

/-! ## The memory port -/

/-- R142: an access stands on the memory port. -/
def Port.isBusy : Port → Bool
  | .busy _ => true
  | _ => false

/-- R154: the port becomes free. -/
def Ev.freePort (e : Ev) : Ev := e.modifyPath fun p => { p with port := .free }

/-- MEMORY_ACCESS_DONE (R142, R154): the access completes and the arbiter grants the port. -/
def execMemoryAccessDone (s : State) : Host.Outcome State Fault Refusal :=
  occurIf s.path.port.isBusy Ev.freePort s

/-- R152: the head entry's cell is sampled, cleaned and unqueued, and the word is presented to memory. -/
def Ev.inject (e : Ev) (a : Nat) : Ev :=
  (e.present a (some (e.s.valueAt a)) allBytes).modifyPath fun p =>
    (((p.clean a).dropHead e.s.imageCells).settleHead e.s.imageCells)

/-- INJECTION (R152): at the grant of the injection claim. -/
def execInjection (s : State) : Host.Outcome State Fault Refusal :=
  match s.path.queue with
  | a :: _ => occurIf (s.path.port == .granted .injection) (fun e => e.inject a) s
  | [] => .next s

/-- R156: the address of a word of the slot that is being written. -/
def State.noticeAddress (s : State) : Nat :=
  (s.addressOf ⟨.notice, s.notices.writeIndex.toNat % Config.ringSlots, s.notices.nextWord⟩).getD 0

/-- R156: what follows the write of word 0, 1 or 2 of a record. -/
def Notices.wordWritten (n : Notices) : Notices := { n with nextWord := n.nextWord + 1 }

/-- R156, R157: the write of word 3: the record leaves staging, its severity is recorded, the write index advances and
ATTN is re-evaluated. -/
def Notices.recordWritten (n : Notices) (r : Notice) : Notices :=
  ({ n with
    staging := n.staging.tail
    nextWord := 0
    severities := n.severities.set (n.writeIndex.toNat % Config.ringSlots) (some r.severity)
    writeIndex := n.writeIndex + 1 }).evaluate

/-- R156: write one word of the oldest staged record. -/
def Ev.writeNotice (e : Ev) (r : Notice) : Ev :=
  let e1 := e.present e.s.noticeAddress (some (r.word e.s.notices.nextWord)) allBytes
  if e.s.notices.nextWord < 3 then e1.modifyNotices Notices.wordWritten
  else (e1.modifyNotices fun n => n.recordWritten r).markGeneral 5

/-- NOTICE_WORD_WRITE (R156): at a grant of the notice claim. -/
def execNoticeWordWrite (s : State) : Host.Outcome State Fault Refusal :=
  match s.notices.staging with
  | r :: _ => occurIf (s.path.port == .granted .notice) (fun e => e.writeNotice r) s
  | [] => .next s

end Sys2Proof.Machine
end

