-- ==== Sys2Proof/Machine/Lighting.lean ====
section
/-! DEFINITION. The Light Unit's events: grants taken (R121), fades (R122), boosts that expire (R119), frames and replies of
the lamp link with string and sign outcomes (R73, R124 to R129), and string retries (R128). -/

namespace Sys2Proof.Machine

/-- R122: one fade step of an output. -/
def fadeStep (output target : Nat) : Nat :=
  if output < target then output + 1 else if target < output then output - 1 else output

/-- R127: the failed list of a reply: places below the count, converted to positions, once each, ascending. -/
def failedPositions (c : StringConfig) (places : List Nat) : List Nat :=
  sortedSet ((places.filter fun j => j < c.count).map c.flip)

namespace Ev

/-- R122: a fade timer expires: each output steps towards its target, and the timer starts again while any differs. -/
def fadeExpires (e : Ev) (k : Nat) : Ev :=
  let n := (e.s.stringConfig k).count
  let moved := fading e.s k
  let e1 := e.modifyString k fun r =>
    { r with
      fadeTimer := none
      luminaires := r.luminaires.mapIdx fun p l => if p < n then { l with output := fadeStep l.output l.target } else l }
  (if moved then e1.setStringPending k else e1).startFade k

/-- R119: a luminaire's boost ends. -/
def endBoost (e : Ev) (k p : Nat) : Ev :=
  (e.modifyString k fun r => { r with luminaires := r.luminaires.modify p fun l => { l with boost := none } }).touchString k

/-- R121: a string takes a flag that another claimant's pass has changed, and recomposes its targets from it. -/
def takeFlagAlone (e : Ev) (k : Nat) : Ev := (e.takeFlag k).composeTargets k

/-- R127: the failed list is replaced, each position that enters it is told of, and the claims are computed afresh at the
end of the event. -/
def replaceFailed (e : Ev) (k : Nat) (l : List Nat) : Ev :=
  let old := (e.s.lampString k).failed
  if old = l then e
  else
    (((e.modifyString k fun r => { r with failed := l }).markAll .string k [16, 18, 19]).forEach
      (l.filter fun p => !old.contains p) fun e p => e.post .lampFailed 1 (some k) (BitVec.ofNat 32 p)).touchString k

/-- R128: an OK outcome acts on the link state. -/
def stringOk (e : Ev) (k : Nat) : Ev :=
  let r := e.s.lampString k
  let e1 := e.modifyString k fun r => { r with link := .reachable, misses := 0 }
  if r.link = .unreachable then e1.mark .string k 16 else e1

/-- R128: the string retry timer, started for 10 s. -/
def startStringRetry (e : Ev) (k : Nat) : Ev :=
  e.modifyString k fun r => { r with retryTimer := e.s.startTimer (.seconds Config.stringRetrySeconds) }

/-- R128: a MISS of a string frame. -/
def stringMiss (e : Ev) (k : Nat) : Ev :=
  let r := e.s.lampString k
  if r.link = .unreachable then e.startStringRetry k
  else if r.misses + 1 < 3 then
    (e.modifyString k fun r => { r with misses := r.misses + 1 }).setStringPending k
  else
    (((e.modifyString k fun r => { r with misses := 3, link := .unreachable }).mark .string k 16).startStringRetry k).post
      .stringUnreachable 2 (some k) 0

/-- R73: an OK outcome of a sign frame. -/
def signOk (e : Ev) (d : Nat) : Ev :=
  let r := e.s.point d
  if r.health = .fault then
    (e.modifyPoint d fun p => { p with health := .ok, misses := 0, retryTimer := none }).mark .point d 0
  else e.modifyPoint d fun p => { p with misses := 0 }

/-- R73: the sign retry timer, started for 10 s. -/
def startSignRetry (e : Ev) (d : Nat) : Ev :=
  e.modifyPoint d fun p => { p with retryTimer := e.s.startTimer (.seconds Config.signRetrySeconds) }

/-- R73: a MISS of a sign frame. -/
def signMiss (e : Ev) (d : Nat) : Ev :=
  let r := e.s.point d
  if r.health = .fault then e.startSignRetry d
  else if r.misses + 1 < 3 then
    (e.modifyPoint d fun p => { p with misses := p.misses + 1 }).setSignPending d
  else
    (((e.modifyPoint d fun p => { p with misses := 3, health := .fault }).mark .point d 0).post .signFault 2 (some d)
      0).startSignRetry d

/-- R124: the link is idle again. -/
def freeLamp (e : Ev) : Ev := e.modifyLamp fun l => { l with frame := none, windowOpen := false }

/-- R124, R127 to R129: the OK outcome of a frame, with the places its reply names. -/
def lampOk (e : Ev) (f : LampFrame) (places : List Nat) : Ev :=
  match f with
  | .sign d _ _ => e.signOk d
  | .string k _ _ => (e.replaceFailed k (failedPositions (e.s.stringConfig k) places)).stringOk k
  | .broadcastString .. => e
  | .broadcastSign .. => e

/-- R124, R128, R129: the MISS outcome of a frame. -/
def lampMiss (e : Ev) (f : LampFrame) : Ev :=
  match f with
  | .sign d _ _ => e.signMiss d
  | .string k _ _ => e.stringMiss k
  | .broadcastString .. => e
  | .broadcastSign .. => e

end Ev

/-- R124: the lamp address a frame is sent to. -/
def LampFrame.address : LampFrame → Nat
  | .sign _ a _ => a
  | .string _ a _ => a
  | .broadcastString a _ => a
  | .broadcastSign a _ => a

/-- LAMP_FRAME_SENT (R124): the answer window opens. -/
def execLampFrameSent (s : State) : Host.Outcome State Fault Refusal :=
  occurIf (s.inService && s.lampLink.frame.isSome && !s.lampLink.windowOpen)
    (fun e => e.modifyLamp fun l => { l with windowOpen := true }) s

/-- LAMP_REPLY (R124, R127 to R129): a reply with another address is discarded, and so is one with no window open. -/
def execLampReply (address : Nat) (failed : List Nat) (s : State) : Host.Outcome State Fault Refusal :=
  match s.lampLink.frame with
  | some f =>
    occurIf (s.inService && s.lampLink.windowOpen && address == f.address)
      (fun e => e.freeLamp.lampOk f failed) s
  | none => .next s

/-- LAMP_WINDOW_EXPIRY (R124, R128, R129). -/
def execLampWindowExpiry (s : State) : Host.Outcome State Fault Refusal :=
  match s.lampLink.frame with
  | some f => occurIf (s.inService && s.lampLink.windowOpen) (fun e => e.freeLamp.lampMiss f) s
  | none => .next s

/-- STRING_RETRY_TIMER_EXPIRY (R128). -/
def execStringRetryTimerExpiry (string : Nat) (s : State) : Host.Outcome State Fault Refusal :=
  occurIf (s.inService && (s.lampString string).retryTimer.isSome)
    (fun e => (e.modifyString string fun r => { r with retryTimer := none }).setStringPending string) s

/-- FADE_TIMER_EXPIRY (R122). -/
def execFadeTimerExpiry (string : Nat) (s : State) : Host.Outcome State Fault Refusal :=
  occurIf (s.inService && (s.lampString string).fadeTimer.isSome) (fun e => e.fadeExpires string) s

/-- R119: the boost expiry of a luminaire. -/
def State.boostOf (s : State) (k p : Nat) : Option PartTime :=
  ((s.lampString k).luminaires.getD p Luminaire.reset).boost

/-- BOOST_EXPIRY (R119): part time has reached the luminaire's boost expiry. -/
def execBoostExpiry (string position : Nat) (s : State) : Host.Outcome State Fault Refusal :=
  match s.boostOf string position with
  | some t => occurIf (s.inService && s.reached t) (fun e => e.endBoost string position) s
  | none => .next s

/-- STRING_GRANT_TAKEN (R121, R136): the Budget holds another flag for the string than the string does. -/
def execStringGrantTaken (string : Nat) (s : State) : Host.Outcome State Fault Refusal :=
  occurIf (s.inService && string < s.stringCount && (s.stringClaim string).grant != (s.lampString string).grant)
    (fun e => e.takeFlagAlone string) s

end Sys2Proof.Machine
end

