-- ==== Sys2Proof/Machine/Store.lean ====
section
/-! DEFINITION. The commissioning store: its header and CRC-32 (R170, R177), its sections and records (R178) and the load
checks that the owning chapters lay on them (R2, R21, R45, R78, R95, R114, R143, R170). -/

namespace Sys2Proof.Machine

/-! ## Words and CRC -/

/-- R177: one bit of the CRC register, least significant first; 0xEDB88320 is the generator 0x04C11DB7 in that order. -/
def crcShift (r : Word) : Word := if r.getLsbD 0 then (r >>> 1) ^^^ 0xEDB88320#32 else r >>> 1

/-- R177: the CRC register after one more byte. -/
def crcByte (r : Word) (b : Byte) : Word :=
  crcShift (crcShift (crcShift (crcShift (crcShift (crcShift (crcShift (crcShift (r ^^^ b.zeroExtend 32))))))))

/-- R178: the little-endian words of a section's content; bytes short of a word are left out. -/
def wordsOf : List Byte → List Nat
  | b0 :: b1 :: b2 :: b3 :: rest => (wordOf b0 b1 b2 b3).toNat :: wordsOf rest
  | _ => []

/-- The `i`th word of the header (R177). -/
def headerWord (bytes : List Byte) (i : Nat) : Nat := (wordsOf (bytes.take 16)).getD i 0

/-- R177: bytes 0x50, 0x4B, 0x34, 0x16 in address order. -/
def porthelMarker : List Byte := [0x50, 0x4B, 0x34, 0x16]

/-- R170 check 2: marker, format and length. -/
def headerOk (bytes : List Byte) : Bool :=
  bytes.take 4 == porthelMarker && headerWord bytes 1 == 1 && 16 ≤ headerWord bytes 2 && headerWord bytes 2 ≤ 262144

/-- R170: of the bytes read so far, those that follow the header, up to the length the header gives. -/
def imageBody (bytes : List Byte) : List Byte :=
  if bytes.length < 16 then [] else (bytes.drop 16).take (headerWord bytes 2)

/-- R170: the image has been read whole. -/
def imageWhole (bytes : List Byte) : Bool := 16 ≤ bytes.length && 16 + headerWord bytes 2 ≤ bytes.length

/-! ## Sections (R170 checks 4 and 5, R178) -/

/-- R178: the sections of the image, each a tag and its content; none where one reaches beyond the image, has a length
that is not a multiple of 4, or leaves bytes over. Each section takes at least 8 bytes, so `fuel` bounds their number. -/
def sections : Nat → List Byte → Option (List (Nat × List Nat))
  | _, [] => some []
  | 0, _ => none
  | fuel + 1, bytes =>
    match wordsOf (bytes.take 8) with
    | [tag, len] =>
      if len % 4 = 0 && len ≤ (bytes.drop 8).length then
        (sections fuel ((bytes.drop 8).drop len)).map fun rest => (tag, wordsOf ((bytes.drop 8).take len)) :: rest
      else none
    | _ => none

/-- R170: the nine tags, each known and none twice, and none missing. -/
def tagsOk (l : List (Nat × List Nat)) : Bool :=
  l.all (fun x => 1 ≤ x.1 && x.1 ≤ 9) && decide (l.map (·.1)).Nodup && l.length == 9

/-- The content of the section with a tag. -/
def sectionOf (l : List (Nat × List Nat)) (tag : Nat) : List Nat :=
  match l.find? (fun x => x.1 == tag) with
  | some x => x.2
  | none => []

/-! ## Records -/

/-- A reader of words: what it read and the words that follow, or none. -/
abbrev Reader (α : Type) := List Nat → Option (α × List Nat)

/-- The next `n` words. -/
def takeWords (n : Nat) : Reader (List Nat) := fun l => if n ≤ l.length then some (l.take n, l.drop n) else none

/-- R178: a list, one word of count and then one word per item. -/
def takeList : Reader (List Nat)
  | [] => none
  | n :: rest => takeWords n rest

/-- `n` records. -/
def takeRecords {α : Type} (r : Reader α) : Nat → Reader (List α)
  | 0, l => some ([], l)
  | n + 1, l =>
    match r l with
    | none => none
    | some (a, rest) => (takeRecords r n rest).map fun x => (a :: x.1, x.2)

/-- A whole section: `n` records and nothing after them (R178). -/
def wholeRecords {α : Type} (r : Reader α) (n : Nat) (l : List Nat) : Option (List α) :=
  match takeRecords r n l with
  | some (rows, []) => some rows
  | _ => none

/-- A flag is a word of 0 or 1 (R178). -/
def flagOf : Nat → Option Bool
  | 0 => some false
  | 1 => some true
  | _ => none

/-- A fixed record of `n` words, decoded by `f`. -/
def fixedRecord {α : Type} (n : Nat) (f : List Nat → Option α) : Reader α := fun l =>
  match takeWords n l with
  | some (w, rest) => (f w).map fun a => (a, rest)
  | none => none

/-- Eight marks, U1 to U4 then L1 to L4. -/
def marksOf (w : List Nat) : Marks :=
  ⟨w.getD 0 0, w.getD 1 0, w.getD 2 0, w.getD 3 0, w.getD 4 0, w.getD 5 0, w.getD 6 0, w.getD 7 0⟩

def windowRecord : Reader Window :=
  fixedRecord 4 fun w => (SectionKind.ofCode (w.getD 2 0)).map fun k => ⟨w.getD 0 0, w.getD 1 0, k, w.getD 3 0⟩

def zoneRecord : Reader ZoneConfig :=
  fixedRecord 27 fun w =>
    some ⟨w.getD 0 0, w.getD 1 0, w.getD 2 0, w.getD 3 0, marksOf (w.drop 4), marksOf (w.drop 12), w.getD 20 0,
      w.getD 21 0, Table.ofList 5 0 (w.drop 22)⟩

/-- R178: an absent luminaire is 0xFFFFFFFF in both words. -/
def luminaireOf (k p : Nat) : Option (Nat × Nat) := if k = 4294967295 && p = 4294967295 then none else some (k, p)

def bayRecord : Reader BayConfig :=
  fixedRecord 6 fun w => (BayClass.ofCode (w.getD 1 0)).map fun c =>
    ⟨w.getD 0 0, c, w.getD 2 0, w.getD 3 0, luminaireOf (w.getD 4 0) (w.getD 5 0)⟩

def sensorRecord : Reader SensorConfig := fixedRecord 2 fun w => some ⟨w.getD 0 0, w.getD 1 0⟩

/-- R178: drive address; lines; served zones; power table; base stages; step-down interval. -/
def groupRecord : Reader GroupConfig
  | [] => none
  | address :: l =>
    match takeList l with
    | none => none
    | some (lines, l1) =>
      match takeList l1 with
      | none => none
      | some (served, l2) =>
        match takeWords 11 l2, allSome lineOfCode lines with
        | some (w, rest), some lines =>
          some (⟨address, lines, served, Table.ofList 7 0 w, w.getD 7 0, w.getD 8 0, w.getD 9 0, w.getD 10 0⟩, rest)
        | _, _ => none

def stringRecord : Reader StringConfig :=
  fixedRecord 10 fun w => (flagOf (w.getD 3 0)).map fun r =>
    ⟨w.getD 0 0, w.getD 1 0, w.getD 2 0, r, w.getD 4 0, w.getD 5 0, w.getD 6 0, w.getD 7 0, w.getD 8 0, w.getD 9 0⟩

def copyRecord : Reader CopyRule :=
  fixedRecord 5 fun w => some ⟨w.getD 0 0, w.getD 1 0, w.getD 2 0, w.getD 3 0, w.getD 4 0⟩

/-- R178: sign address; input B class; policy; chain; weight table; show time; transit lifetime; transit limit; flag. -/
def pointRecord : Reader PointConfig
  | address :: inputB :: policy :: l =>
    match takeList l with
    | none => none
    | some (chain, l1) =>
      match takeWords 36 l1 with
      | none => none
      | some (w, rest) =>
        match inputBOfCode inputB, Policy.ofCode policy, allSome chainEntryOf chain, allSome phaseOf (w.take 32),
            flagOf (w.getD 35 0) with
        | some inputB, some policy, some chain, some phases, some enabled =>
          some (⟨address, inputB, policy, chain, Table.ofList 32 none phases, w.getD 32 0, w.getD 33 0, w.getD 34 0,
            enabled⟩, rest)
        | _, _, _, _, _ => none
  | _ => none

/-- R178: the nine sections read as a configuration. -/
def plantOf (l : List (Nat × List Nat)) : Option Plant :=
  match sectionOf l 1, sectionOf l 2, sectionOf l 3, sectionOf l 4, sectionOf l 5, sectionOf l 6, sectionOf l 7,
      sectionOf l 8, sectionOf l 9 with
  | memorySize :: windowCount :: ws, zoneCount :: zs, bayCount :: arrive :: depart :: bs, sensorCount :: ss,
      groupCount :: gs, stringCount :: ks, copyCount :: cs, pointCount :: ps, [cap] =>
    match wholeRecords windowRecord windowCount ws, wholeRecords zoneRecord zoneCount zs,
        wholeRecords bayRecord bayCount bs, wholeRecords sensorRecord sensorCount ss,
        wholeRecords groupRecord groupCount gs, wholeRecords stringRecord stringCount ks,
        wholeRecords copyRecord copyCount cs, wholeRecords pointRecord pointCount ps with
    | some windows, some zones, some bays, some sensors, some groups, some strings, some copies, some points =>
      some ⟨memorySize, windows, zones, arrive, depart, bays, sensors, groups, strings, copies, points, cap⟩
    | _, _, _, _, _, _, _, _ => none
  | _, _, _, _, _, _, _, _, _ => none

/-! ## Load checks -/

/-- `lo` to `hi`, both included. -/
def within (lo hi v : Nat) : Bool := lo ≤ v && v ≤ hi

/-- No item twice. -/
def noRepeat {α : Type} [DecidableEq α] (l : List α) : Bool := decide l.Nodup

/-- The table of stages or powers never falls from one to the next. -/
def neverFalls : List Nat → Bool
  | a :: b :: rest => a ≤ b && neverFalls (b :: rest)
  | _ => true

/-- R143: the objects that a window starts. -/
def Window.starts (w : Window) : Nat := (256 * w.blocks + w.kind.stride - 1) / w.kind.stride

/-- Two ranges, each by its first number and its length, share a number. -/
def overlap (a n b m : Nat) : Bool := a < b + m && b < a + n

/-- R143: two windows may stand in one map. -/
def Window.apart (v w : Window) : Bool :=
  !overlap v.base (256 * v.blocks) w.base (256 * w.blocks)
    && (v.kind != w.kind || !overlap v.first v.starts w.first w.starts)

/-- R143: exactly one window of a kind, one block long, from index 0. -/
def soleWindow (l : List Window) (k : SectionKind) : Bool :=
  match l.filter (fun w => w.kind == k) with
  | [w] => w.blocks == 1 && w.first == 0
  | _ => false

/-- R143, R170. -/
def Plant.memoryOk (p : Plant) : Bool :=
  within 256 4194304 p.memorySize && p.memorySize % 256 == 0 && p.windows.length ≤ Config.windows
    && p.windows.all (fun w => w.base % 256 == 0 && within 1 64 w.blocks && w.base + 256 * w.blocks ≤ p.memorySize)
    && decide (p.windows.Pairwise fun v w => v.apart w)
    && soleWindow p.windows .general && soleWindow p.windows .notice

/-- R1, R2, R78, R89, R95. -/
def ZoneConfig.ok (z : ZoneConfig) : Bool :=
  within 60 3600 z.quietTime && within 1 64 z.promiseLimit && within 0 30 z.spacing && within 30 600 z.promiseLifetime
    && z.coMarks.ok Config.coFullScale && z.no2Marks.ok Config.no2FullScale && within 10 600 z.fallHold
    && within 0 4 z.blindStage && z.stageMap.rows.all (· ≤ 6) && neverFalls z.stageMap.rows

def Plant.zonesOk (p : Plant) : Bool := within 1 Config.zones p.zones.length && p.zones.all ZoneConfig.ok

/-- R21: a luminaire names a configured string and a position of it. -/
def Plant.luminaireOk (p : Plant) (l : Option (Nat × Nat)) : Bool :=
  match l with
  | none => true
  | some (k, i) => match p.strings[k]? with
    | some c => i < c.count
    | none => false

/-- R21. -/
def Plant.baysOk (p : Plant) : Bool :=
  within 1 Config.bays p.bays.length && within 1 30 p.arriveDebounce && within 1 30 p.departDebounce
    && p.bays.all (fun b => b.zone < p.zones.length && within 1 4095 b.sensorAddress
        && within 1 4095 b.indicatorAddress && p.luminaireOk b.luminaire)
    && noRepeat (p.bays.map (·.sensorAddress)) && noRepeat (p.bays.map (·.indicatorAddress))
    && noRepeat (p.bays.filterMap (·.luminaire))

/-- R2, R78. -/
def Plant.sensorsOk (p : Plant) : Bool :=
  p.sensors.length ≤ Config.sensors
    && p.sensors.all (fun n => n.zone < p.zones.length && within 1 255 n.airAddress)
    && noRepeat (p.sensors.map (·.airAddress))
    && (List.range p.zones.length).all (fun z => p.sensors.countP (fun n => n.zone == z) ≤ 8)

/-- R95. -/
def Plant.groupsOk (p : Plant) : Bool :=
  p.groups.length ≤ Config.groups
    && p.groups.all (fun g => within 1 247 g.driveAddress && within 1 3 g.lines.length && noRepeat g.lines
        && within 1 8 g.served.length && noRepeat g.served && g.served.all (· < p.zones.length)
        && g.power.rows.all (· ≤ 65535) && neverFalls g.power.rows && g.baseActive ≤ 6 && g.baseQuiet ≤ 6
        && g.baseAsleep ≤ 6 && within 10 300 g.stepDown)
    && noRepeat (p.groups.map (·.driveAddress))

/-- R2, R45, R114: the addresses of strings and signs are shared with none. -/
def Plant.stringsOk (p : Plant) : Bool :=
  p.strings.length ≤ Config.strings
    && p.strings.all (fun k => within 1 4095 k.lampAddress && k.zone < p.zones.length && within 1 64 k.count
        && within 1 500 k.rating && k.safety ≤ 63 && k.economy ≤ 63 && k.boostLevel ≤ 63 && within 10 600 k.boostTime
        && within 1 63 k.fadeRate)
    && noRepeat (p.strings.map (·.lampAddress) ++ p.points.map (·.signAddress))
    && (List.range p.zones.length).all (fun z => p.strings.countP (fun k => k.zone == z) ≤ 4)

/-- R114. -/
def Plant.copiesOk (p : Plant) : Bool :=
  p.copies.length ≤ 8
    && p.copies.all (fun r => r.source < p.strings.length && r.dest < p.strings.length && r.source != r.dest
        && r.first ≤ r.last && (p.strings[r.source]?.any fun k => r.last < k.count)
        && (p.strings[r.dest]?.any fun k => r.start + (r.last - r.first) < k.count))

/-- R45, R68: a chain's length, targets and repeats. -/
def chainOk (zones points : Nat) (chain : List ChainEntry) : Bool :=
  within 1 8 chain.length && noRepeat (chain.map (·.target))
    && chain.all fun entry => match entry.target with
      | .zone z => z < zones
      | .point d => d < points

/-- R45, but for the weight table. -/
def Plant.pointsOk (p : Plant) : Bool :=
  p.points.length ≤ Config.points
    && p.points.all (fun d => within 1 4095 d.signAddress && chainOk p.zones.length p.points.length d.chain
        && within 2 30 d.showTime && within 20 300 d.transitLifetime && within 1 64 d.transitLimit)
    && !hasCycle (p.points.map (·.chain))

/-- R45: a phase of the weight table names an entry of the chain. A CHAIN may later leave one beyond it (R56). -/
def PointConfig.weightsOk (d : PointConfig) : Bool :=
  d.weights.rows.all fun phase => phase.all fun i => i < d.chain.length

/-- The checks of R170 that stand as long as the configuration does, whatever a list entry changes in it (R4, R68, R71,
R89, R97, R123). -/
def Plant.standing (p : Plant) : Bool :=
  p.memoryOk && p.zonesOk && p.baysOk && p.sensorsOk && p.groupsOk && p.stringsOk && p.copiesOk && p.pointsOk
    && p.storeCap ≤ 65535

/-- R170 check 6: every check that an owning chapter lays on its section. -/
def Plant.ok (p : Plant) : Bool := p.standing && p.points.all PointConfig.weightsOk

/-- R170: the checks made on the whole image once its CRC has passed. -/
def loadImage (body : List Byte) : Option Plant :=
  match sections (body.length / 8) body with
  | none => none
  | some l =>
    if tagsOk l then
      match plantOf l with
      | some p => if p.ok then some p else none
      | none => none
    else none

end Sys2Proof.Machine
end

