-- ==== Sys2Proof/Machine/Commands.lean ====
section
/-! DEFINITION. The fifteen list commands (R168): the checks and the effect of each in its owning block. A command answers
the event after its effect with no reason, or the event unchanged with the reason of its refusal (R164). -/

namespace Sys2Proof.Machine

/-- What a command answers: the event, and the reason of a refusal. -/
abbrev Answer := Ev × Option Reason

namespace Ev

def done (e : Ev) : Answer := (e, none)
def refuse (e : Ev) (r : Reason) : Answer := (e, some r)

/-! ## Bay Table -/

/-- R32 case 3: place a hold. -/
def placeHold (e : Ev) (b duration : Nat) : Ev :=
  ((((e.modify fun s =>
    { s with holds := s.holds ++ [⟨b, s.after duration, duration == Config.nearingSeconds⟩] }).mark .bay b 1).mark .bay b
      0).markGeneral 16).rederiveBay b

/-- R32 case 4: extend a hold. -/
def extendHold (e : Ev) (b duration : Nat) : Ev :=
  ((e.modify fun s =>
    { s with holds := s.holds.map fun h =>
        if h.bay = b then { h with expiry := s.after duration, nearing := duration == Config.nearingSeconds } else h }).mark
    .bay b 1).refreshIndicator b

/-- HOLD (R32), the first case that applies. -/
def commandHold (e : Ev) (b duration : Nat) (extend : Bool) : Answer :=
  if e.s.bayCount ≤ b || duration < 60 || 86400 < duration then e.refuse .range
  else match (e.s.bay b).state with
    | .free =>
      if Config.holdPool ≤ e.s.holds.length then e.refuse .poolFull else (e.placeHold b duration).done
    | .held => if extend then (e.extendHold b duration).done else e.refuse .state
    | .occupied => e.refuse .notFree
    | .unknown => e.refuse .notFree
    | .outOfService => e.refuse .notFree

/-- RELEASE (R36). -/
def commandRelease (e : Ev) (b : Nat) : Answer :=
  if e.s.bayCount ≤ b then e.refuse .range
  else if (e.s.hold b).isNone then e.refuse .state
  else ((e.removeHold b).rederiveBay b).done

/-- R37: OUT. -/
def serviceOut (e : Ev) (b : Nat) : Ev :=
  if (e.s.bay b).reasonOperator then e
  else
    (((e.modifyBay b fun r => { r with reasonOperator := true }).mark .bay b 0).post .bayOut 1 (some b)
      reasonOperatorCode).rederiveBay b

/-- R37: IN. -/
def serviceIn (e : Ev) (b : Nat) : Ev :=
  if (e.s.bay b).reasonOperator then
    ((e.modifyBay b fun r => { r with reasonOperator := false }).mark .bay b 0).rederiveBay b
  else e

/-- BAY SERVICE (R37): OUT 0, IN 1. -/
def commandBayService (e : Ev) (b direction : Nat) : Answer :=
  if e.s.bayCount ≤ b then e.refuse .range
  else match direction with
    | 0 => (e.serviceOut b).done
    | 1 => (e.serviceIn b).done
    | _ => e.refuse .range

/-- R4, R38: the class of a bay changes. -/
def changeClass (e : Ev) (b : Nat) (c : BayClass) : Ev :=
  let old := (e.s.bayConfig b).cls
  let st := (e.s.bay b).state
  ((((e.modifyPlant fun p => { p with bays := p.bays.modify b fun r => { r with cls := c } }).mark .bay b 0).bayChange b st
    old st c).refreshIndicator b)

/-- BAY CLASS (R38). -/
def commandBayClass (e : Ev) (b code : Nat) : Answer :=
  match BayClass.ofCode code with
  | none => e.refuse .range
  | some c =>
    if e.s.bayCount ≤ b then e.refuse .range
    else if (e.s.hold b).isSome then e.refuse .state
    else (e.changeClass b c).done

/-! ## Guidance Unit -/

/-- ZONE PACING (R71). -/
def commandZonePacing (e : Ev) (z limit spacing lifetime : Nat) : Answer :=
  if e.s.zoneCount ≤ z || !within 1 64 limit || !within 0 30 spacing || !within 30 600 lifetime then e.refuse .range
  else if limit < e.s.zonePromises z then e.refuse .state
  else
    ((e.modifyPlant fun p =>
      { p with zones := p.zones.modify z fun r =>
          { r with promiseLimit := limit, spacing := spacing, promiseLifetime := lifetime } }).mark .zone z 10).done

/-- R68: a chain is accepted. -/
def setChain (e : Ev) (d : Nat) (policy : Policy) (chain : List ChainEntry) : Ev :=
  ((e.modifyPlant fun p =>
    { p with points := p.points.modify d fun r => { r with policy := policy, chain := chain } }).modifyPoint d fun r =>
    { r with pointer := 0 }).mark .point d 4

/-- CHAIN (R68): the range checks, then the loop check. -/
def commandChain (e : Ev) (operands : List Nat) : Answer :=
  match operands with
  | d :: policy :: entries =>
    match Policy.ofCode policy, allSome chainEntryOf entries with
    | some policy, some chain =>
      if e.s.pointCount ≤ d || !chainOk e.s.zoneCount e.s.pointCount chain then e.refuse .range
      else if hasCycle ((e.s.plant.points.map (·.chain)).set d chain) then e.refuse .loop
      else (e.setChain d policy chain).done
    | _, _ => e.refuse .range
  | _ => e.refuse .range

/-- R69: a weight table is accepted. -/
def setWeights (e : Ev) (d : Nat) (phases : List (Option Nat)) : Ev :=
  ((e.modifyPlant fun p =>
    { p with points := p.points.modify d fun r => { r with weights := Table.ofList 32 none phases } }).modifyPoint d fun r =>
    { r with pointer := 0 }).mark .point d 4

/-- WEIGHTS (R69). -/
def commandWeights (e : Ev) (d : Nat) (values : List Nat) : Answer :=
  match allSome phaseOf values with
  | none => e.refuse .range
  | some phases =>
    if e.s.pointCount ≤ d || phases.any (fun ph => ph.any fun i => (e.s.pointConfig d).chain.length ≤ i) then
      e.refuse .range
    else (e.setWeights d phases).done

/-- R70: DISABLE. -/
def disablePoint (e : Ev) (d : Nat) : Ev :=
  if (e.s.point d).state = .disabled then e
  else (e.modifyPoint d fun p => { p with showTimer := none }).setFace d .disabled .blank

/-- R70: ENABLE. -/
def enablePoint (e : Ev) (d : Nat) : Ev := if (e.s.point d).state = .disabled then e.toIdle d else e

/-- POINT ENABLE (R70): DISABLE 0, ENABLE 1. -/
def commandPointEnable (e : Ev) (d direction : Nat) : Answer :=
  if e.s.pointCount ≤ d then e.refuse .range
  else match direction with
    | 0 => (e.disablePoint d).done
    | 1 => (e.enablePoint d).done
    | _ => e.refuse .range

/-! ## Air Unit -/

/-- R89: new marks for one gas, evaluated at once where the zone is not blind. -/
def setMarks (e : Ev) (z : Nat) (gas : Gas) (m : Marks) : Ev :=
  let e1 := e.modifyPlant fun p =>
    { p with zones := p.zones.modify z fun r => match gas with
        | .co => { r with coMarks := m }
        | .no2 => { r with no2Marks := m } }
  if (e1.s.zoneGas z).blind then e1 else (e1.evaluateGas z gas).deriveFume z

/-- ZONE MARKS (R89). -/
def commandZoneMarks (e : Ev) (z gasCode : Nat) (m : Marks) : Answer :=
  match gasOfCode gasCode with
  | none => e.refuse .range
  | some gas =>
    if e.s.zoneCount ≤ z || !m.ok (fullScale gas) then e.refuse .range else (e.setMarks z gas m).done

/-! ## Drive Unit -/

/-- STAGE MAP (R97). -/
def commandStageMap (e : Ev) (z : Nat) (stages : List Nat) : Answer :=
  if e.s.zoneCount ≤ z || stages.any (fun v => 6 < v) || !neverFalls stages then e.refuse .range
  else
    ((e.modifyPlant fun p =>
      { p with zones := p.zones.modify z fun r => { r with stageMap := Table.ofList 5 0 stages } }).forEach
      (e.s.servingGroups z) recomposeP).done

/-! ## Light Unit -/

/-- R123: the LEVELS cells of a string whose content a level at each of its positions changes. -/
def sceneCells (s : State) (k level : Nat) : List Nat :=
  (List.range 16).filter fun w =>
    (List.range 4).any fun i =>
      decide (4 * w + i < (s.stringConfig k).count) && (s.lampString k).levels.getD (4 * w + i) 0 != level

/-- R123: the fade rate of a scene, and a running fade timer restarted with it. -/
def sceneRate (e : Ev) (k : Nat) (fade : Option Nat) : Ev :=
  match fade with
  | none => e
  | some rate =>
    (e.modifyPlant fun p =>
      { p with strings := p.strings.modify k fun c => { c with fadeRate := rate } }).modifyString k fun r =>
      { r with fadeTimer := if r.fadeTimer.isSome then e.s.startTimer (.fraction rate) else none }

/-- R123: one pair of a scene. -/
def scenePair (fade : Option Nat) (e : Ev) (pair : Nat × Nat) : Ev :=
  let n := (e.s.stringConfig pair.1).count
  (((e.modifyString pair.1 fun r =>
    { r with levels := r.levels.mapIdx fun p v => if p < n then pair.2 else v }).markAll .string pair.1
      (sceneCells e.s pair.1 pair.2)).sceneRate pair.1 fade).touchString pair.1

/-- SCENE (R123), with the value of FADE where it is given. -/
def commandScene (e : Ev) (operands : List Nat) (fade : Option Nat) : Answer :=
  match allSome scenePairOf operands with
  | none => e.refuse .range
  | some pairs =>
    if !within 1 40 pairs.length || pairs.any (fun pr => e.s.stringCount ≤ pr.1 || 63 < pr.2)
        || fade.any (fun rate => !within 1 63 rate) then e.refuse .range
    else (e.forEach pairs (scenePair fade)).done

/-! ## Supply Budget -/

/-- CAP (R139): a grant pass is run even where the cap keeps its value. -/
def commandCap (e : Ev) (v : Nat) : Answer :=
  if 65535 < v then e.refuse .range
  else
    let e1 := e.modifyBudget fun b => { b with cap := v }
    let e2 := if e.s.budget.cap = v then e1 else e1.markGeneral 13
    ({ e2 with pass := true } : Ev).done

/-! ## CLEAR COUNTS (R167) -/

/-- R17. -/
def clearZone (e : Ev) (z : Nat) : Ev :=
  (e.modifyZone z fun r =>
    { r with paced := 0, unpromised := 0, lapsed := 0, recalled := 0, withdrawn := 0 }).markAll .zone z [11, 12, 13]

/-- R75. -/
def clearPoint (e : Ev) (d : Nat) : Ev :=
  (e.modifyPoint d fun p => { p with passages := 0, turnedAway := 0, poolEmpty := 0 }).markAll .point d [1, 2]

/-- R110. -/
def clearGroup (e : Ev) (g : Nat) : Ev := (e.modifyGroup g fun r => { r with failedCommands := 0 }).mark .fan g 4

/-- R159. -/
def clearNotices (e : Ev) : Ev :=
  (e.modifyNotices fun n => { n with lost := 0, guarded := 0, rejected := 0 }).markAll .general 0 [8, 9, 10]

/-- CLEAR COUNTS (R17, R41, R75, R110, R159, R167): every owner's share. -/
def commandClearCounts (e : Ev) : Answer :=
  let e1 := e.forEach (List.range e.s.zoneCount) clearZone
  let e2 := (e1.modify fun s => { s with stray := 0 }).markGeneral 17
  let e3 := (e2.forEach (List.range e.s.pointCount) clearPoint).forEach (List.range e.s.groupCount) clearGroup
  ((e3.clearNotices.modifyRunner fun r => { r with refusals := 0 }).markGeneral 11).done

/-! ## RESTART (R174) -/

/-- R67: the whole pool is emptied. -/
def clearPool (e : Ev) : Ev :=
  (((e.modify fun s => { s with pool := [] }).forEach (List.range e.s.zoneCount) fun e z => e.mark .zone z 10).forEach
    (List.range e.s.pointCount) fun e d => e.mark .point d 3).markGeneral 16

/-- R76: the Guidance Unit's share for one DP. -/
def restartPoint (e : Ev) (d : Nat) : Ev :=
  let e1 := if (e.s.point d).state = .showing || (e.s.point d).state = .fullShown then e.toIdle d else e
  ((e1.modifyPoint d fun p => { p with pointer := 0 }).mark .point d 4).setSignPending d

/-- R109: a command for stage K is issued at once. -/
def resendStage (e : Ev) (g : Nat) : Ev :=
  (e.modifyGroup g fun r => { r with retryTimer := none }).issue g (e.s.group g).k

/-- R109: the Drive Unit's share for one group. -/
def restartGroup (e : Ev) (g : Nat) : Ev :=
  let e1 := (e.modifyGroup g fun r => { r with failureCount := 0 }).mark .fan g 4
  match (e.s.group g).state with
  | .ready => e1.issue g (e.s.group g).k
  | .retryWait => e1.resendStage g
  | .fault => e1.resendStage g
  | .inFlight => e1.modifyGroup g fun r => { r with resend := true }

/-- R132: the Light Unit's share for one string. -/
def restartString (e : Ev) (k : Nat) : Ev :=
  ((e.modifyString k fun r =>
    { r with
      luminaires := r.luminaires.mapIdx fun _ l => { l with boost := none }
      retryTimer := if r.link = .unreachable then none else r.retryTimer }).touchString k).setStringPending k

/-- RESTART (R174, with R19, R43, R67, R76, R109, R132 and R159): every block's share. -/
def commandRestart (e : Ev) : Answer :=
  let e1 := (e.markReports.clearPool).forEach (List.range e.s.zoneCount) rederiveAccess
  let e2 := e1.forEach (List.range e.s.bayCount) setIndicatorPending
  let e3 := e2.forEach (List.range e.s.pointCount) restartPoint
  ((e3.forEach (List.range e.s.groupCount) restartGroup).forEach (List.range e.s.stringCount) restartString).done

/-! ## The commands -/

/-- R168: run a command with its operands. `options` are the codes and values of the options its entry carries; the
counts of operands are those that R164 has checked. -/
def runCommand (e : Ev) (c : ListCommand) (operands : List Nat) (options : List (ListOption × Nat)) : Answer :=
  match c, operands with
  | .endList, _ => e.done
  | .hold, [b, duration] => e.commandHold b duration (options.any fun o => o.1 == .extend)
  | .release, [b] => e.commandRelease b
  | .bayService, [b, direction] => e.commandBayService b direction
  | .bayClass, [b, code] => e.commandBayClass b code
  | .zonePacing, [z, limit, spacing, lifetime] => e.commandZonePacing z limit spacing lifetime
  | .chain, _ => e.commandChain operands
  | .weights, d :: values => e.commandWeights d values
  | .pointEnable, [d, direction] => e.commandPointEnable d direction
  | .zoneMarks, [z, gas, u1, u2, u3, u4, l1, l2, l3, l4] => e.commandZoneMarks z gas ⟨u1, u2, u3, u4, l1, l2, l3, l4⟩
  | .stageMap, z :: stages => e.commandStageMap z stages
  | .scene, _ => e.commandScene operands ((options.find? fun o => o.1 == .fade).map (·.2))
  | .cap, [v] => e.commandCap v
  | .clearCounts, _ => e.commandClearCounts
  | .restart, _ => e.commandRestart
  | _, _ => e.refuse .length

end Ev

end Sys2Proof.Machine
end

