-- ==== Sys2Proof/Machine/Lists.lean ====
section
/-! DEFINITION. The List Runner's accesses: the fetch of an entry word by word with its check and run (R163, R164), the
status write (R165, R166) and the closing write (R166). -/

namespace Sys2Proof.Machine

/-! ## Checking an entry (R163, R164) -/

/-- The words after the header, split into option words and operand words. -/
def optionWords (words : List Word) : List Word :=
  match words with
  | [] => []
  | h :: rest => rest.take (headerOptions h)

def operandWords (words : List Word) : List Word :=
  match words with
  | [] => []
  | h :: rest => rest.drop (headerOptions h)

/-- R163: the length of an entry by its header. -/
def entryLength (h : Word) : Nat := 2 + headerOptions h + headerOperands h

/-- R163: every word of the entry but its status has been read. -/
def entryComplete (words : List Word) : Bool :=
  match words with
  | [] => false
  | h :: rest => rest.length == headerOptions h + headerOperands h

/-- R164: the options an entry carries, none where an option code is unknown. -/
def entryOptions (words : List Word) : Option (List (ListOption × Nat)) :=
  allSome (fun w => (ListOption.ofCode (optionCode w)).map fun o => (o, optionValue w)) (optionWords words)

/-- R164: the options are known, meaningful for the command, and none is repeated. -/
def optionsOk (c : ListCommand) (options : List (ListOption × Nat)) : Bool :=
  options.all (fun o => o.1.meaningful c) && noRepeat (options.map (·.1))

/-- R164: CONTINUE acts wherever it is carried on a command for which it is meaningful. -/
def continueActs (c : ListCommand) (words : List Word) : Bool :=
  ListOption.meaningful .continueOn c && (optionWords words).any fun w => ListOption.ofCode (optionCode w) == some .continueOn

namespace Ev

/-- R164: check an entry and run its command: the first failure gives the reason. -/
def checkEntry (e : Ev) (c : ListCommand) (words : List Word) : Answer :=
  match entryOptions words with
  | none => e.refuse .badOption
  | some options =>
    if !optionsOk c options then e.refuse .badOption
    else if c.operandCount.any (fun n => n != (operandWords words).length) then e.refuse .length
    else e.runCommand c ((operandWords words).map (·.toNat)) options

/-- R164: the outcome of an entry, kept until its status is written. -/
def outcomeOf (c : ListCommand) (words : List Word) (h : Word) (refusal : Option Reason) : EntryOutcome where
  refusal := refusal
  isEnd := c == .endList
  silent := (optionWords words).any fun w => ListOption.ofCode (optionCode w) == some .silent
  continues := continueActs c words
  length := entryLength h

/-- The runner's place after an outcome: its status is due. -/
def statusDue (e : Ev) (o : EntryOutcome) : Ev := e.modifyRunner fun r => { r with phase := .statusDue o }

/-- R163: the header's operand count is above 40. -/
def refuseHeader (e : Ev) (h : Word) : Ev := e.statusDue ⟨some .length, false, false, false, entryLength h⟩

/-- R164: the last word of an entry has been read. -/
def runEntry (e : Ev) (words : List Word) (h : Word) : Ev :=
  match ListCommand.ofCode (headerCode h) with
  | none => e.statusDue ⟨some .badCode, false, false, false, entryLength h⟩
  | some c =>
    let a := e.checkEntry c words
    a.1.statusDue (outcomeOf c words h a.2)

/-- R163: what follows the words read so far. -/
def afterFetch (e : Ev) (words : List Word) : Ev :=
  match words with
  | [] => e
  | h :: _ =>
    if Config.operandLimit < headerOperands h then e.refuseHeader h
    else if entryComplete words then e.runEntry words h
    else e.modifyRunner fun r => { r with phase := .fetching words }

/-- R163: the address of the next word of an entry: its header, then past its status word. -/
def fetchAddress (r : Runner) (words : List Word) : Nat :=
  match words with
  | [] => r.entryAddress
  | _ :: rest => r.entryAddress + 2 + rest.length

/-- R163: read one word at its grant. -/
def fetchWord (e : Ev) (words : List Word) : Ev :=
  let a := fetchAddress e.s.runner words
  (e.present a none allBytes).afterFetch (words ++ [e.s.mem.readWord a])

/-! ## The end of an entry and of a list (R165, R166) -/

/-- R166: the list ends with a result. -/
def endList (e : Ev) (result : ListResult) (silent : Bool) : Ev :=
  let e1 := (e.modifyRunner fun r => { r with phase := .idle, result := result, abort := false }).markGeneral 4
  if silent then e1 else e1.post .listDone 0 none (BitVec.ofNat 32 result.code)

/-- R166: a closing write is due, into the status word of the next entry. -/
def closingDue (e : Ev) (o : EntryOutcome) (result : ListResult) (status : Word) : Ev :=
  e.modifyRunner fun r => { r with phase := .closingDue result (r.entryAddress + o.length + 1) status }

/-- R166: the fetch of the next entry begins. -/
def nextEntry (e : Ev) (o : EntryOutcome) : Ev :=
  e.modifyRunner fun r =>
    { r with phase := .fetching [], entryIndex := r.entryIndex + 1, entryAddress := r.entryAddress + o.length }

/-- R166: the first case that applies. -/
def decideEntry (e : Ev) (o : EntryOutcome) : Ev :=
  if o.isEnd && o.refusal.isNone then e.endList .complete o.silent
  else if o.refusal.isSome && !o.continues then e.endList .stopped false
  else if e.s.runner.abort then e.closingDue o .aborted abandonedStatus
  else if e.s.runner.entryIndex = Config.lastEntryIndex then e.closingDue o .limit lengthStatus
  else e.nextEntry o

/-- R165: the outcome is written into the entry's status word. -/
def writeStatus (e : Ev) (o : EntryOutcome) : Ev :=
  (((e.present (e.s.runner.entryAddress + 1) (some o.status) allBytes).modifyRunner fun r =>
    { r with entriesDone := r.entriesDone + 1 }).markGeneral 4).decideEntry o

end Ev

/-- LIST_WORD_FETCH (R163, R164): one word of the entry is read at the grant of the fetch claim. -/
def execListWordFetch (s : State) : Host.Outcome State Fault Refusal :=
  match s.runner.phase with
  | .fetching words => occurIf (s.path.port == .granted .fetch) (fun e => e.fetchWord words) s
  | _ => .next s

/-- STATUS_WRITE (R165, R166): the outcome is written at the grant of the status claim. -/
def execStatusWrite (s : State) : Host.Outcome State Fault Refusal :=
  match s.runner.phase with
  | .statusDue o => occurIf (s.path.port == .granted .status) (fun e => e.writeStatus o) s
  | _ => .next s

/-- LIST_CLOSING_WRITE (R166): the closing status is written at its grant, and the list ends. -/
def execListClosingWrite (s : State) : Host.Outcome State Fault Refusal :=
  match s.runner.phase with
  | .closingDue result a w =>
    occurIf (s.path.port == .granted .status) (fun e => (e.present a (some w) allBytes).endList result false) s
  | _ => .next s

end Sys2Proof.Machine
end

