-- ==== Sys2Proof/Machine/StartUp.lean ====
section
/-! DEFINITION. The Start-up Loader: RESET, the load, SERVICE entry, FALLBACK and part time (chapter 10, with the reset and
entry values of each chapter). -/

namespace Sys2Proof.Machine

/-- R142, R158, R169: at RESET an access already presented completes, and every claim of the part is withdrawn. -/
def Port.atReset : Port → Port
  | .busy a => .busy a
  | _ => .free

/-- R169: every block at its reset values. Memory, the access presented on the memory port, a host access that waits and
the word last returned to the host are kept. -/
def State.resetBlocks (s : State) : State :=
  { State.reset with
    pending := s.pending
    mem := s.mem
    path := { MemoryPath.reset with
      port := s.path.port.atReset, hostWaiting := s.path.hostWaiting, hostAnswer := s.path.hostAnswer } }

/-- R169: the assertion of RESET: a host access that waits is fixed as a plain one, whenever its grant comes. -/
def State.assertReset (s : State) : State :=
  { s.resetBlocks with
    path := { s.resetBlocks.path with hostWaiting := s.path.hostWaiting.map fun h => { h with plain := true } } }

/-! ## FALLBACK (R173) -/

/-- R173: on each drive line, a command frame for stage 6 to address 0. -/
def broadcastCommand : LineActivity := .broadcast 0 6

/-- R173: on the lamp link, a string frame with 64 levels, all 63, to address 0. -/
def broadcastString : LampFrame := .broadcastString 0 (List.replicate 64 63)

/-- R173: on the lamp link, a sign frame with face CLOSED to address 0. -/
def broadcastSign : LampFrame := .broadcastSign 0 .closed

/-- R173: on the bay link, an indicator frame with colour OFF to address 0, its blink STEADY (assumption 12). -/
def broadcastIndicator : BayFrame := .broadcast 0 ⟨.off, .steady⟩

namespace Ev

/-- R173: an idle line sends its broadcast frame; one still sending keeps the new broadcast waiting, as one with any that
waits already (assumption 17). -/
def broadcastLine (e : Ev) (l : DriveLine) : Ev :=
  e.modifyLine l fun r =>
    if r.activity = broadcastCommand then { r with newer := true }
    else { r with activity := broadcastCommand, newer := false }

/-- R173: one broadcast on every link. -/
def broadcast (e : Ev) : Ev :=
  ((e.forEach allLines broadcastLine).modifyLamp fun l =>
      if l.frame.isSome then { l with newer := true }
      else { l with frame := some broadcastString, windowOpen := false, newer := false }).modifyBayLink fun l =>
    if l.frame.isSome then { l with newer := true } else { l with frame := some broadcastIndicator, newer := false }

/-- R157, R173: entry to FALLBACK, with the first broadcast. -/
def enterFallback (e : Ev) : Ev :=
  (((e.modifyLoader fun l =>
      { l with partState := .fallback, storeBytes := [], storeReading := false,
               broadcastTimer := some ⟨l.partTime, .seconds Config.broadcastSeconds⟩ }).modifyNotices fun n =>
    { n with attn := true })).broadcast

/-! ## SERVICE entry (R171) -/

/-- R18, R92: zones and their gas state. -/
def enterZones (e : Ev) : Ev :=
  let s := e.s
  e.modify fun t =>
    { t with
      zones := t.zones.mapIdx fun z r =>
        if z < s.zoneCount then
          let blind := (s.zoneConfig z).blindStage
          { r with
            unknown := (s.baysOf z).length
            fume := blind
            access := if 3 ≤ blind then .fumeClosed else .full
            quiet := if blind = 0 then s.startTimer (.seconds (s.zoneConfig z).quietTime) else none }
        else r
      gas := t.gas.mapIdx fun z r =>
        if z < s.zoneCount then
          { r with coStage := (s.zoneConfig z).blindStage, no2Stage := (s.zoneConfig z).blindStage }
        else r }

/-- R42: every configured bay is pending, and the last served is taken to be the highest. -/
def enterBays (e : Ev) : Ev :=
  e.modifyBayLink fun l =>
    { l with last := e.s.bayCount - 1, pending := l.pending.mapIdx fun b m => if b < e.s.bayCount then true else m }

/-- R76: decision points and their signs. -/
def enterPoints (e : Ev) : Ev :=
  let s := e.s
  (e.modify fun t =>
    { t with points := t.points.mapIdx fun d r =>
        if d < s.pointCount && (s.pointConfig d).enabled then
          { r with state := .idle, face := .summary (s.summaryNumber d) }
        else r }).modifyLamp fun l =>
    { l with lastSign := s.pointCount - 1,
             signPending := l.signPending.mapIdx fun d m => if d < s.pointCount then true else m }

/-- R79, R92: polling begins at sensor 0. -/
def enterAir (e : Ev) : Ev :=
  e.modify fun t => { t with airLink := if t.sensorCount = 0 then none else some ⟨0, false⟩ }

/-- R111: P and Q of every group, whose first command is on its way. -/
def enterGroups (e : Ev) : Ev :=
  let s := e.s
  e.modify fun t =>
    { t with groups := t.groups.mapIdx fun g r =>
        if g < s.groupCount then { r with p := s.composeP g, q := s.composeQ g, state := .inFlight } else r }

/-- R131: strings: evacuation and override from the blind stage, outputs at 63 under override. -/
def enterStrings (e : Ev) : Ev :=
  let s := e.s
  (e.modify fun t =>
    { t with strings := t.strings.mapIdx fun k r =>
        if k < s.stringCount then
          let evac := (s.zone (s.stringConfig k).zone).fume == 4
          { r with
            evacuation := evac
            override := evac
            luminaires := r.luminaires.mapIdx fun p l =>
              if evac && p < (s.stringConfig k).count then { l with output := 63 } else l }
        else r }).modifyLamp fun l =>
    { l with lastString := s.stringCount - 1,
             stringPending := l.stringPending.mapIdx fun k m => if k < s.stringCount then true else m }

/-- R141: every group and string hands in its claims, one pass is run, and its grants are taken within the entry. -/
def firstGrants (e : Ev) : Ev :=
  let strings := List.range e.s.stringCount
  let groups := List.range e.s.groupCount
  let e1 := (((e.forEach strings composeUnbudgeted).forEach strings recordString).forEach groups recordGroup).grantPass
  ((e1.forEach groups takeGrant).forEach strings takeFlag).forEach strings composeTargets

/-- R111: the first command of a group, for its target stage. -/
def firstCommand (e : Ev) (g : Nat) : Ev := e.issue g (e.s.group g).t

/-- R171: SERVICE entry, from the reset values and the configuration of the store. -/
def enterService (e : Ev) (p : Plant) : Ev :=
  let e1 := e.modify fun s =>
    { s.resetBlocks with
      loader := { Loader.reset with partState := .service }
      plant := p
      budget := { Budget.reset with cap := p.storeCap } }
  let e2 := e1.modifyPath fun m => { m with sweep := e1.s.imageCells.head? }
  let e3 := (((((e2.enterZones.enterBays).enterPoints).enterAir).enterGroups).enterStrings).firstGrants
  (e3.forEach (List.range e3.s.groupCount) firstCommand).markImage

/-! ## Loading (R170) -/

/-- R170: what follows from the bytes read so far: the load fails, goes on with the next read, or enters SERVICE. -/
def loadProgress (e : Ev) : Ev :=
  let bytes := e.s.loader.storeBytes
  if bytes.length < 16 then e
  else if !headerOk bytes then e.enterFallback
  else if !imageWhole bytes then e
  else if ~~~ e.s.loader.storeCrc ≠ BitVec.ofNat 32 (headerWord bytes 3) then e.enterFallback
  else match loadImage (imageBody bytes) with
    | some p => e.enterService p
    | none => e.enterFallback

/-- R170: the data of a read joins the image, and the CRC is computed as it is read. -/
def takeStoreData (e : Ev) (data : List Byte) : Ev :=
  e.modifyLoader fun l =>
    let bytes := l.storeBytes ++ data
    { l with
      storeBytes := bytes
      storeCrc := ((imageBody bytes).drop (imageBody l.storeBytes).length).foldl crcByte l.storeCrc }

end Ev

/-- A store read is in flight (R170). -/
def State.storeBusy (s : State) : Bool := s.loader.partState == .loading && s.loader.storeReading

/-- RESET_ASSERT (R169): the part is RESETTING, whatever state it was in. -/
def execResetAssert (s : State) : Host.Outcome State Fault Refusal :=
  occur (fun e => e.modify State.assertReset) s

/-- RESET_RELEASE (R169, R170): the part enters LOADING and reads the store from address 0. -/
def execResetRelease (s : State) : Host.Outcome State Fault Refusal :=
  occurIf (s.loader.partState == .resetting)
    (fun e => e.modifyLoader fun _ => { Loader.reset with partState := .loading, storeReading := true }) s

/-- STORE_READ_DONE (R170, R171). -/
def execStoreReadDone (data : List Byte) (s : State) : Host.Outcome State Fault Refusal :=
  occurIf s.storeBusy (fun e => (e.takeStoreData data).loadProgress) s

/-- STORE_READ_TIMEOUT (R170 check 1). -/
def execStoreReadTimeout (s : State) : Host.Outcome State Fault Refusal :=
  occurIf s.storeBusy Ev.enterFallback s

/-- BROADCAST_TIMER_EXPIRY (R173): the timer runs again and the part makes one broadcast. -/
def execBroadcastTimerExpiry (s : State) : Host.Outcome State Fault Refusal :=
  occurIf (s.loader.partState == .fallback && s.loader.broadcastTimer.isSome)
    (fun e => (e.modifyLoader fun l =>
      { l with broadcastTimer := some ⟨l.partTime, .seconds Config.broadcastSeconds⟩ }).broadcast) s

/-- R173: the frame of a broadcast that ends on a drive line, with what the line does next. -/
def LineRecord.broadcastDone (r : LineRecord) : LineRecord :=
  if r.newer then { r with newer := false } else { r with activity := .idle }

/-- R173: on the lamp link the sign frame follows the string frame, unless a newer broadcast waits. -/
def LampLink.broadcastDone (l : LampLink) : LampLink :=
  if l.newer then { l with frame := some broadcastString, newer := false }
  else if l.frame = some broadcastString then { l with frame := some broadcastSign }
  else { l with frame := none }

/-- R173: the frame of a broadcast that ends on the bay link. -/
def BayLink.broadcastDone (l : BayLink) : BayLink :=
  if l.newer then { l with newer := false } else { l with frame := none }

/-- A broadcast frame is being sent on the link (R173). -/
def State.broadcasting (s : State) : BroadcastLink → Bool
  | .drive line => (s.line line).activity == broadcastCommand
  | .lamp => s.lampLink.frame == some broadcastString || s.lampLink.frame == some broadcastSign
  | .bay => s.bayLink.frame == some broadcastIndicator

/-- BROADCAST_FRAME_DONE (R173). -/
def execBroadcastFrameDone (link : BroadcastLink) (s : State) : Host.Outcome State Fault Refusal :=
  occurIf (s.loader.partState == .fallback && s.broadcasting link)
    (fun e => match link with
      | .drive line => e.modifyLine line LineRecord.broadcastDone
      | .lamp => e.modifyLamp LampLink.broadcastDone
      | .bay => e.modifyBayLink BayLink.broadcastDone) s

/-- R33: the holds whose remaining time has fallen to 60 are nearing. -/
def Ev.testNearing (e : Ev) (h : Hold) : Ev :=
  let e1 := e.mark .bay h.bay 1
  if h.expiry - e.s.partTime = BitVec.ofNat 32 Config.nearingSeconds then
    (e1.modify fun s =>
      { s with holds := s.holds.map fun x => if x.bay = h.bay then { x with nearing := true } else x }).refreshIndicator h.bay
  else e1

/-- R90: at an advance, an age that comes to 65,535 stops there, and the AGE cell of a sensor whose age was below 65,535
is marked. -/
def Ev.markAge (before : State) (e : Ev) (n : Nat) : Ev :=
  let e1 := e.modifySensor n fun r => { r with ageStopped := decide (Config.ageLimit ≤ before.sensorAge n + 1) }
  if before.sensorAge n < Config.ageLimit then e1.mark .sensor n 2 else e1

/-- R33, R34, R64, R119: a lapse is due: part time has reached the expiry of a hold, a promise or a boost. -/
def State.lapseDue (s : State) : Bool :=
  s.holds.any (fun h => s.reached h.expiry) || s.pool.any (fun p => s.reached p.expiry)
    || s.strings.rows.any fun k => k.luminaires.rows.any fun l => l.boost.any s.reached

/-- PART_TIME_ADVANCE (R172, R33, R90). An advance arises once every lapse that the last one made due has been taken
(assumption 20), so that no hold stays beyond its expiry. -/
def execPartTimeAdvance (s : State) : Host.Outcome State Fault Refusal :=
  occurIf (s.inService && !s.lapseDue)
    (fun e =>
      let e1 := (e.modifyLoader fun l => { l with partTime := l.partTime + 1 }).markGeneral 1
      (e1.forEach s.holds Ev.testNearing).forEach (List.range s.sensorCount) (Ev.markAge s)) s

end Sys2Proof.Machine
end

