-- ==== Sys2Proof/Machine/Zones.lean ====
section
/-! DEFINITION. The Zone Table's own event: the quiet timer's expiry (R10). -/

namespace Sys2Proof.Machine

/-- R10: what a zone's rest becomes at its quiet timer's expiry. -/
def restAfterQuiet (m : ZoneMode) : Rest := if m = .dormant then .asleep else .quiet

/-- QUIET_TIMER_EXPIRY (R10 to R12). -/
def execQuietTimerExpiry (zone : Nat) (s : State) : Host.Outcome State Fault Refusal :=
  occurIf (s.inService && (s.zone zone).quiet.isSome)
    (fun e => e.restZone zone (restAfterQuiet (s.zone zone).mode)) s

end Sys2Proof.Machine
end

