-- ==== Sys2Proof/Machine/Dispatch.lean ====
section
/-! DEFINITION. One arm per event: the call of its meaning. -/

namespace Sys2Proof.Machine

def exec (i : Instr) (s : State) : Host.Outcome State Fault Refusal :=
  match i with
  | .resetAssert => Sys2Proof.Machine.execResetAssert s
  | .resetRelease => Sys2Proof.Machine.execResetRelease s
  | .storeReadDone data => Sys2Proof.Machine.execStoreReadDone data s
  | .storeReadTimeout => Sys2Proof.Machine.execStoreReadTimeout s
  | .broadcastTimerExpiry => Sys2Proof.Machine.execBroadcastTimerExpiry s
  | .partTimeAdvance => Sys2Proof.Machine.execPartTimeAdvance s
  | .holdLapse bay => Sys2Proof.Machine.execHoldLapse bay s
  | .promiseLapse place => Sys2Proof.Machine.execPromiseLapse place s
  | .boostExpiry string position => Sys2Proof.Machine.execBoostExpiry string position s
  | .bayReport address presence fault kind => Sys2Proof.Machine.execBayReport address presence fault kind s
  | .debounceExpiry bay => Sys2Proof.Machine.execDebounceExpiry bay s
  | .silenceExpiry bay => Sys2Proof.Machine.execSilenceExpiry bay s
  | .quietTimerExpiry zone => Sys2Proof.Machine.execQuietTimerExpiry zone s
  | .indicatorFrameDone => Sys2Proof.Machine.execIndicatorFrameDone s
  | .passage point input => Sys2Proof.Machine.execPassage point input s
  | .showTimerExpiry point => Sys2Proof.Machine.execShowTimerExpiry point s
  | .signRetryTimerExpiry point => Sys2Proof.Machine.execSignRetryTimerExpiry point s
  | .pollSent => Sys2Proof.Machine.execPollSent s
  | .pollReply address co no2 fault => Sys2Proof.Machine.execPollReply address co no2 fault s
  | .pollMiss => Sys2Proof.Machine.execPollMiss s
  | .fallHoldExpiry zone gas => Sys2Proof.Machine.execFallHoldExpiry zone gas s
  | .driveFrameSent line => Sys2Proof.Machine.execDriveFrameSent line s
  | .driveAnswer line address result => Sys2Proof.Machine.execDriveAnswer line address result s
  | .driveWindowExpiry line => Sys2Proof.Machine.execDriveWindowExpiry line s
  | .stepDownTimerExpiry group => Sys2Proof.Machine.execStepDownTimerExpiry group s
  | .retryTimerExpiry group => Sys2Proof.Machine.execRetryTimerExpiry group s
  | .fanGrantTaken group => Sys2Proof.Machine.execFanGrantTaken group s
  | .stringGrantTaken string => Sys2Proof.Machine.execStringGrantTaken string s
  | .fadeTimerExpiry string => Sys2Proof.Machine.execFadeTimerExpiry string s
  | .lampFrameSent => Sys2Proof.Machine.execLampFrameSent s
  | .lampReply address failed => Sys2Proof.Machine.execLampReply address failed s
  | .lampWindowExpiry => Sys2Proof.Machine.execLampWindowExpiry s
  | .stringRetryTimerExpiry string => Sys2Proof.Machine.execStringRetryTimerExpiry string s
  | .hostReadCell address enables => Sys2Proof.Machine.execHostReadCell address enables s
  | .guardedWrite address data enables => Sys2Proof.Machine.execGuardedWrite address data enables s
  | .modeWrite address data enables => Sys2Proof.Machine.execModeWrite address data enables s
  | .extraAirWrite address data enables => Sys2Proof.Machine.execExtraAirWrite address data enables s
  | .floorWrite address data enables => Sys2Proof.Machine.execFloorWrite address data enables s
  | .levelsWrite address data enables => Sys2Proof.Machine.execLevelsWrite address data enables s
  | .allFullWrite address data enables => Sys2Proof.Machine.execAllFullWrite address data enables s
  | .noticeReadIndexWrite address data enables => Sys2Proof.Machine.execNoticeReadIndexWrite address data enables s
  | .attentionThresholdWrite address data enables => Sys2Proof.Machine.execAttentionThresholdWrite address data enables s
  | .commandStart address data enables => Sys2Proof.Machine.execCommandStart address data enables s
  | .commandAbort address data enables => Sys2Proof.Machine.execCommandAbort address data enables s
  | .hostWritePass address data enables => Sys2Proof.Machine.execHostWritePass address data enables s
  | .memoryAccessDone => Sys2Proof.Machine.execMemoryAccessDone s
  | .injection => Sys2Proof.Machine.execInjection s
  | .noticeWordWrite => Sys2Proof.Machine.execNoticeWordWrite s
  | .listWordFetch => Sys2Proof.Machine.execListWordFetch s
  | .statusWrite => Sys2Proof.Machine.execStatusWrite s
  | .listClosingWrite => Sys2Proof.Machine.execListClosingWrite s
  | .broadcastFrameDone link => Sys2Proof.Machine.execBroadcastFrameDone link s

end Sys2Proof.Machine
end

