-- ==== Sys2Proof/Safety.lean ====
section
/-! DEFINITION. What a good state of the part is, in the terms that claims use: nothing is left undone at the end of an
event, memory keeps its canonical form, and the queues and pools keep to their sizes. -/

namespace Sys2Proof.Machine

/-! ## Turns, notices, promises and marks -/

/-- R40, R125: `i` is the eligible device whose turn comes after `last` in index order, passing from the highest to the
lowest. -/
def NextInTurn (last count : Nat) (eligible : Nat → Bool) (i : Nat) : Prop :=
  i < count ∧ eligible i = true
    ∧ ((last < i ∧ ∀ j, j < i → eligible j = true → j ≤ last)
      ∨ ((∀ j, j < count → eligible j = true → j ≤ last) ∧ ∀ j, j < i → eligible j = false))

/-- R155: one record posted. -/
def Notices.stage (n : Notices) (r : Notice) : Notices :=
  if n.staging.length < Config.staging then { n with staging := n.staging ++ [r] } else { n with lost := n.lost + 1 }

/-- R155, R156: what an event leaves of the notices that posts the given records in order. -/
def Notices.posting (n : Notices) (l : List Notice) : Notices :=
  let m := l.foldl Notices.stage n
  if m.ringFull && !m.staging.isEmpty then { m with staging := [], lost := m.lost + BitVec.ofNat 16 m.staging.length } else m

/-- R62: of the promises to zone `z`, the oldest of each class, as many as `room` says. -/
def keepOldest (z : Nat) : PerClass Nat → List Promise → List Promise
  | _, [] => []
  | room, p :: rest =>
    if p.target = .zone z then
      if 0 < room.get p.cls then p :: keepOldest z (room.set p.cls (room.get p.cls - 1)) rest else keepOldest z room rest
    else p :: keepOldest z room rest

/-- R9 to R13: a zone record after activity: ACTIVE, with the reason of its waking, and its quiet timer restarted in clean
air. -/
def Zone.awake (r : Zone) (wake : Wake) (now : PartTime) (quietTime : Nat) : Zone :=
  { r with
    rest := .active
    wake := if r.rest = .active then r.wake else wake
    quiet := if r.fume = 0 then some ⟨now, .seconds quietTime⟩ else r.quiet }

/-- R84, R85: one evaluation of a gas at value `v`, from stage `g` and its fall-hold timer: the stage is the highest above
`g` whose rise mark the value has reached, or `g`; and the timer runs exactly while the value is below the fall mark of a
stage above 0, started afresh by a rise. -/
def Marks.Judged (m : Marks) (v g : Nat) (timer fresh : Option Timer) (stage : Nat) (after : Option Timer) : Prop :=
  (stage = g ∨ (g < stage ∧ stage ≤ 4 ∧ m.rise stage ≤ v))
    ∧ (∀ j, g < j → j ≤ 4 → m.rise j ≤ v → j ≤ stage)
    ∧ after = (if stage = 0 ∨ m.fall stage ≤ v then none
        else if stage = g ∧ timer.isSome = true then timer else fresh)

/-! ## List entries (R164, R168) -/

/-- R164: the option code is meaningful on the command code: CONTINUE on every command but END and CAP, FADE on SCENE, EXTEND
on HOLD and SILENT on END. -/
def optionMeaningful (command : Nat) : Nat → Bool
  | 1 => command != 1 && command != 13
  | 2 => command == 12
  | 3 => command == 2
  | 4 => command == 1
  | _ => false

/-- R164: the option codes of an entry pass the check for BAD_OPTION. -/
def OptionsLegal (command : Nat) (options : List Nat) : Prop :=
  (∀ o ∈ options, optionMeaningful command o = true) ∧ options.Nodup

/-- R168: the operand words of a command, where their count is fixed. -/
def fixedOperands : Nat → Option Nat
  | 1 => some 0 | 2 => some 2 | 3 => some 1 | 4 => some 2 | 5 => some 2 | 6 => some 4 | 8 => some 33 | 9 => some 2
  | 10 => some 10 | 11 => some 6 | 13 => some 1 | 14 => some 0 | 15 => some 0 | _ => none

namespace State

/-- R66: every IDLE decision point shows its summary number. -/
def SummariesFollow (s : State) : Prop :=
  ∀ d, d < s.pointCount → (s.point d).state = .idle → (s.point d).face = .summary (s.summaryNumber d)

/-- R104: in SERVICE no idle drive line has a group in its queue. -/
def LinesServed (s : State) : Prop :=
  s.inService = true → ∀ l, (s.line l).activity = .idle → (s.line l).queue = []

/-- R124: in SERVICE the lamp link is idle only while no sign and no string is eligible. -/
def LampServed (s : State) : Prop :=
  s.inService = true → s.lampLink.frame = none →
    (∀ d, s.signEligible d = false) ∧ ∀ k, s.stringEligible k = false

/-- R40: in SERVICE the outbound bay link is idle only while no bay is pending. -/
def BayLinkServed (s : State) : Prop :=
  s.inService = true → s.bayLink.frame = none → ∀ b, b < s.bayCount → s.indicatorPending b = false

/-- R156: no record is staged while the ring is full. -/
def RingRespected (s : State) : Prop := s.notices.ringFull = true → s.notices.staging = []

/-- R154: the drain flag is set while the queue holds 96 entries or more. -/
def DrainRaised (s : State) : Prop := Config.drainMark ≤ s.path.queue.length → s.path.drain = true

/-- R154: the port is free only while no claim waits. -/
def PortSettled (s : State) : Prop := s.path.port = .free → s.path.hostWaiting = none ∧ s.partClaim = none

/-- Nothing that the end of an event does before the arbiter is left to do. -/
structure Settled (s : State) : Prop where
  summaries : s.SummariesFollow
  lines : s.LinesServed
  lamp : s.LampServed
  bayLink : s.BayLinkServed
  ring : s.RingRespected
  drain : s.DrainRaised

/-- Nothing that the end of an event does is left to do. -/
structure Rested (s : State) : Prop extends s.Settled where
  port : s.PortSettled

/-- R151: the injection queue names each cell once and holds at most 128 entries. -/
structure QueueOk (s : State) : Prop where
  bound : s.path.queue.length ≤ Config.injectionQueue
  once : s.path.queue.Nodup

/-- R31, R47, R155: the hold pool, the promise pool and notice staging keep to their sizes. -/
structure PoolsOk (s : State) : Prop where
  holds : s.holds.length ≤ Config.holdPool
  pool : s.pool.length ≤ Config.promisePool
  staging : s.notices.staging.length ≤ Config.staging

/-- R140: under a cap, the granted power exceeds neither the cap nor the protected power, whichever is larger. -/
def CapRespected (s : State) : Prop :=
  s.budget.cap ≠ 0 → s.budget.grantedPower ≤ max s.budget.cap s.budget.protectedPower

/-- The discretionary power granted to the strings below `k`. -/
def stringsGranted (s : State) (k : Nat) : Nat :=
  ((List.range k).map fun j => if (s.stringClaim j).grant then (s.stringClaim j).disc else 0).sum

/-- The discretionary power granted to the groups below `g`. -/
def groupsGranted (s : State) (g : Nat) : Nat :=
  ((List.range g).map fun j =>
    if (s.groupClaim j).p < (s.groupClaim j).g then
      s.power j (s.groupClaim j).g - s.power j (s.groupClaim j).p
    else 0).sum

/-- The recorded grants, the totals and the OVER_CAP flag are those of a pass over the recorded claims and the cap (R137,
R138): with no cap everything is granted; under a cap below the protected power nothing is; otherwise the strings in index
order, each whole where it fits into what is left, and then the groups in index order, each at the highest stage that
fits. -/
structure GrantsStand (s : State) : Prop where
  overCap : s.budget.overCap = true ↔ s.budget.cap ≠ 0 ∧ s.budget.cap < s.protectedSum
  protectedPower : s.budget.protectedPower = s.protectedSum
  grantedPower : s.budget.grantedPower = s.protectedSum + s.discretionaryGranted
  uncapped : s.budget.cap = 0 → (∀ k, k < s.stringCount → (s.stringClaim k).grant = true)
    ∧ ∀ g, g < s.groupCount → (s.groupClaim g).g = (s.groupClaim g).q
  exceeded : s.budget.overCap = true → (∀ k, k < s.stringCount → (s.stringClaim k).grant = false)
    ∧ ∀ g, g < s.groupCount → (s.groupClaim g).g = min (s.groupClaim g).p (s.groupClaim g).q
  strings : s.budget.cap ≠ 0 → s.budget.overCap = false → ∀ k, k < s.stringCount →
    ((s.stringClaim k).grant = true ↔
      s.protectedSum + s.stringsGranted k + (s.stringClaim k).disc ≤ s.budget.cap)
  groups : s.budget.cap ≠ 0 → s.budget.overCap = false → ∀ g, g < s.groupCount →
    let c := s.groupClaim g
    let fits : Nat → Prop := fun stage =>
      s.protectedSum + s.stringsGranted s.stringCount + s.groupsGranted g + (s.power g stage - s.power g c.p) ≤ s.budget.cap
    if c.q ≤ c.p then c.g = c.q
    else c.p ≤ c.g ∧ c.g ≤ c.q ∧ fits c.g ∧ ∀ stage, c.g < stage → stage ≤ c.q → ¬ fits stage

/-- The configuration in force passes the checks of its load that stand as long as it does (R170), and outside SERVICE there
is none; a bay beyond the count keeps its reset values, and every hold names a configured bay (assumption 13). -/
structure Configured (s : State) : Prop where
  plant : if s.inService = true then s.plant.standing = true else s.plant = Plant.empty
  bays : ∀ b, s.bayCount ≤ b → s.bay b = Bay.reset
  holds : ∀ h ∈ s.holds, h.bay < s.bayCount

/-- R7, R29, R31, R33, R35, R120: the states that are derived are the ones held; a bay has one hold at most, of 86,400
seconds at most, and none where a car stands. -/
structure Derived (s : State) : Prop where
  bays : ∀ b, (s.bay b).state = (s.bay b).derive (s.hold b).isSome
  holds : ∀ b, (s.bay b).occupied = true → s.hold b = none
  once : (s.holds.map (·.bay)).Nodup
  timed : ∀ h ∈ s.holds, (h.expiry - s.partTime).toNat ≤ 86400
  access : ∀ z, z < s.zoneCount → (s.zone z).access = s.deriveAccess z
  overrides : ∀ k, k < s.stringCount →
    (s.lampString k).override = ((s.lampString k).evacuation || s.allFull != 0)

/-- The bays of zone `z` in a state, of a class where one is given. -/
def countBays (s : State) (z : Nat) (st : BayState) (c : Option BayClass) : Nat :=
  (s.baysOf z).countP fun b => (s.bay b).state == st && (c.isNone || c == some (s.bayConfig b).cls)

/-- R3: the counts of a zone are the numbers of its bays in each state. -/
def CountsAddUp (s : State) : Prop :=
  ∀ z, z < s.zoneCount → (∀ c, (s.zone z).free.get c = s.countBays z .free (some c))
    ∧ (s.zone z).held = s.countBays z .held none ∧ (s.zone z).occupied = s.countBays z .occupied none
    ∧ (s.zone z).unknown = s.countBays z .unknown none ∧ (s.zone z).outOfService = s.countBays z .outOfService none

/-! ## Frames: what an event leaves as it is -/

/-- The configuration, the part as a whole, the list runner, memory and the events that wait. -/
def SameGround (s t : State) : Prop :=
  t.pending = s.pending ∧ t.loader = s.loader ∧ t.plant = s.plant ∧ t.runner = s.runner ∧ t.mem = s.mem

/-- The Bay Table, but for its link. -/
def SameBays (s t : State) : Prop := t.bays = s.bays ∧ t.holds = s.holds ∧ t.stray = s.stray

/-- The Air Unit. -/
def SameAir (s t : State) : Prop := t.sensors = s.sensors ∧ t.gas = s.gas ∧ t.airLink = s.airLink

/-- The host's side of the Memory Path: what waits, what was answered, and the demand copies of the general section. -/
def SameHostSide (s t : State) : Prop :=
  t.path.hostWaiting = s.path.hostWaiting ∧ t.path.hostAnswer = s.path.hostAnswer ∧ t.allFull = s.allFull
    ∧ t.notices.writeIndex = s.notices.writeIndex ∧ t.notices.readIndex = s.notices.readIndex
    ∧ t.notices.severities = s.notices.severities ∧ t.notices.threshold = s.notices.threshold
    ∧ t.notices.guarded = s.notices.guarded ∧ t.notices.rejected = s.notices.rejected
    ∧ t.notices.attn = s.notices.attn

/-- A decision point keeps its record, but for the face of an IDLE one, which follows its summary number (R66). -/
def SamePoint (s t : State) (d : Nat) : Prop :=
  t.point d = { s.point d with face := (t.point d).face } ∧ ((s.point d).state ≠ .idle → t.point d = s.point d)

/-- A group keeps its record, but for the stages that claims and grants set and the command that it issues for them
(R96 to R103). -/
def SameGroup (s t : State) (g : Nat) : Prop :=
  t.group g = { s.group g with
    p := (t.group g).p, q := (t.group g).q, g := (t.group g).g, t := (t.group g).t
    state := (t.group g).state, command := (t.group g).command }

/-- A string keeps its record, but for what its grant and its targets change (R118, R121, R122). -/
def SameString (s t : State) (k : Nat) : Prop :=
  t.lampString k = { s.lampString k with
    grant := (t.lampString k).grant, luminaires := (t.lampString k).luminaires, fadeTimer := (t.lampString k).fadeTimer }

/-- The Memory Path but for what marks change (the dirty marks, the queue and the drain flag) and what the arbiter changes
(the port and the host run). -/
def SamePath (s t : State) : Prop :=
  t.path.sweep = s.path.sweep ∧ t.path.hostWaiting = s.path.hostWaiting ∧ t.path.hostAnswer = s.path.hostAnswer
    ∧ ∀ a, a ∈ s.path.dirty → a ∈ t.path.dirty

/-- A cell is marked dirty, where the image has it. -/
def MarkedDirty (t : State) (kind : SectionKind) (object position : Nat) : Prop :=
  ∀ a, t.addressOf ⟨kind, object, position⟩ = some a → a ∈ t.path.dirty

/-- The record is the first that the event posts: it follows the records staged before, where there is room for it. -/
def Posts (s t : State) (n : Notice) : Prop :=
  s.notices.ringFull = false → s.notices.staging.length < Config.staging →
    s.notices.staging ++ [n] <+: t.notices.staging

/-- The sign's turn is to come, or has just come with the face as it is (R72). -/
def SignQueued (t : State) (d : Nat) : Prop :=
  t.signPending d = true
    ∨ t.lampLink.frame = some (.sign d (t.pointConfig d).signAddress (t.point d).face)

/-- The string's turn is to come, or has just come with the outputs as they are (R126). -/
def StringQueued (t : State) (k : Nat) : Prop :=
  t.stringPending k = true
    ∨ t.lampLink.frame = some (.string k (t.stringConfig k).lampAddress
        (stringFrameLevels (t.stringConfig k) (t.lampString k)))

/-- The bay's turn on the link is to come, or has just come with the mode as it is (R40). -/
def IndicatorQueued (t : State) (b : Nat) : Prop :=
  t.indicatorPending b = true
    ∨ t.bayLink.frame = some (.indicator b (t.bayConfig b).indicatorAddress (t.bay b).indicator)

/-- R60, R61: the pool once a car of class `c` that was promised `u` has come: the oldest promise to it of the class is gone,
or else the oldest of any class, if there is one. -/
def consumed (s : State) (u : Target) (c : BayClass) : List Promise :=
  if s.pool.any fun p => p.target == u && p.cls == c then s.pool.eraseP fun p => p.target == u && p.cls == c
  else s.pool.eraseP fun p => p.target == u

/-- R104: the event ends the transaction of the group on line `l` in an outcome. -/
def EndsIn (s : State) (l : DriveLine) (g : Nat) (event : Instr) (o : LineOutcome) : Prop :=
  (event = .driveAnswer l (s.groupConfig g).driveAddress .accept ∧ o = .positive)
    ∨ (∃ code, event = .driveAnswer l (s.groupConfig g).driveAddress (.refuse code) ∧ o = .negative code)
    ∨ (event = .driveWindowExpiry l ∧ o = .silent)

/-- R103: the line queues after a group has joined the queue of each of its lines. -/
def QueuesWith (s t : State) (g : Nat) : Prop :=
  ∀ l, (t.line l).queue = if l ∈ (s.groupConfig g).lines then (s.line l).queue ++ [g] else (s.line l).queue

/-- R142: the host access that an event of the host port brings. -/
def accessOf : Instr → Option HostAccess
  | .hostReadCell a e => some ⟨a, none, e, false⟩
  | .guardedWrite a d e => some ⟨a, some d, e, false⟩
  | .modeWrite a d e => some ⟨a, some d, e, false⟩
  | .extraAirWrite a d e => some ⟨a, some d, e, false⟩
  | .floorWrite a d e => some ⟨a, some d, e, false⟩
  | .levelsWrite a d e => some ⟨a, some d, e, false⟩
  | .allFullWrite a d e => some ⟨a, some d, e, false⟩
  | .noticeReadIndexWrite a d e => some ⟨a, some d, e, false⟩
  | .attentionThresholdWrite a d e => some ⟨a, some d, e, false⟩
  | .commandStart a d e => some ⟨a, some d, e, false⟩
  | .commandAbort a d e => some ⟨a, some d, e, false⟩
  | .hostWritePass a d e => some ⟨a, some d, e, false⟩
  | _ => none

/-- R154: the arbiter grants a free port to the host before a claim of the part, if one waits. -/
def HostFirst (s : State) : Prop := s.partClaim = none ∨ (s.path.drain = false ∧ s.path.hostRun < 16)

/-- R154: the host run after a grant to the host. -/
def runAfter (s : State) : Nat := if s.partClaim = none then 0 else s.path.hostRun + 1

/-- R142, R154: no host access waits, the port is free and the host comes first, so that an access is granted at once. -/
def HostReady (s : State) : Prop := s.path.port = .free ∧ s.path.hostWaiting = none ∧ s.HostFirst

/-- R148: `a` is the address of the demand cell `c` of kind `d`, and a write to it is granted at once. -/
def DemandReady (s : State) (a : Address) (d : Demand) (c : CellRef) : Prop :=
  s.cellAt a.toNat = some c ∧ s.cellClass c = .demand d ∧ s.HostReady

/-- R148: the merged word of a write to the demand cell `c`. -/
def merged (s : State) (c : CellRef) (data : Word) (enables : ByteEnables) : Word :=
  mergeBytes (cellValue s c) data enables

/-- R142, R148: the host's write stands on the port and in memory, as the shaped word with every byte; the configuration,
the part as a whole and the list runner are as they were. -/
def Captured (s t : State) (a : Address) (w : Word) : Prop :=
  t.mem = s.mem.writeWord a.toNat w allBytes ∧ t.path.port = .busy ⟨a.toNat, some w, allBytes⟩
    ∧ t.path.hostWaiting = none ∧ t.path.hostRun = s.runAfter ∧ t.path.hostAnswer = s.path.hostAnswer
    ∧ t.pending = s.pending ∧ t.loader = s.loader ∧ t.plant = s.plant ∧ t.runner = s.runner

/-! ## Notices that several events post -/

/-- R7: the notice of a change of a zone's access state. -/
def accessNotice (s t : State) (z : Nat) : List Notice :=
  if (t.zone z).access = (s.zone z).access then []
  else [⟨.zoneAccess, 1, some z, BitVec.ofNat 32 (t.zone z).access.code, s.partTime⟩]

/-- R138: the notice of a cap newly exceeded. -/
def overCapNotice (s t : State) : List Notice :=
  if t.budget.overCap = true ∧ s.budget.overCap = false then
    [⟨.overCap, 2, none, BitVec.ofNat 32 (t.budget.protectedPower - t.budget.cap), s.partTime⟩]
  else []

/-! ## A bay's change (R3 to R5, R7, R9, R12, R29, R30, R39, R61, R62, R119) -/

/-- The bay's state changes as an arrival or a departure (R30). -/
def Moves (s t : State) (b : Nat) : Prop :=
  isArrival (s.bay b).state (t.bay b).state = true ∨ isDeparture (s.bay b).state (t.bay b).state = true

/-- What the bay's zone, the promise pool and the notices become, `posted` being the records of the bay itself: the bay
moves between the counts; an arrival consumes a promise to the zone or counts as unpromised; where a free count moved, the
youngest promises beyond it are withdrawn; access is re-derived; and an arrival or a departure is activity, and in a DORMANT
zone an INTRUSION. -/
structure ZoneTold (s t : State) (b : Nat) (posted : List Notice) : Prop where
  zone : let z := (s.bayConfig b).zone
    let before := slotOf (s.bay b).state (s.bayConfig b).cls
    let after := slotOf (t.bay b).state (t.bayConfig b).cls
    let arrives := isArrival (s.bay b).state (t.bay b).state
    let counted := if before = after then s.zone z else ((s.zone z).count before (· - 1)).count after (· + 1)
    let kept := if arrives = true then s.consumed (.zone z) (s.bayConfig b).cls else s.pool
    t.pool = (if before ≠ after ∧ (before.isFree = true ∨ after.isFree = true) then
        keepOldest z counted.free kept
      else kept)
    ∧ (s.Moves t b → t.zone z = { counted.awake .bay s.partTime (s.zoneConfig z).quietTime with
        access := t.deriveAccess z
        unpromised := if arrives = true ∧ s.zonePromises z = 0 then (s.zone z).unpromised + 1 else (s.zone z).unpromised
        withdrawn := (s.zone z).withdrawn + BitVec.ofNat 16 (kept.length - t.pool.length) })
    ∧ (¬ s.Moves t b → t.zone z = { counted with
        access := t.deriveAccess z
        withdrawn := (s.zone z).withdrawn + BitVec.ofNat 16 (kept.length - t.pool.length) })
    ∧ (s.Moves t b → (s.zone z).mode = .dormant → t.notices = s.notices.posting
        (posted ++ s.accessNotice t z ++ [⟨.intrusion, 2, some z, BitVec.ofNat 32 b, s.partTime⟩] ++ s.overCapNotice t))
    ∧ (¬ (s.Moves t b ∧ (s.zone z).mode = .dormant) →
        t.notices = s.notices.posting (posted ++ s.accessNotice t z ++ s.overCapNotice t))
  otherZones : ∀ z, z ≠ (s.bayConfig b).zone → t.zone z = s.zone z

/-- What an event leaves that makes the record of bay `b` into `r`, re-derives its state and posts `posted` of the bay
itself. -/
structure BayHandled (s t : State) (b : Nat) (r : Bay) (posted : List Notice) : Prop where
  bay : t.bay b = { r with
    state := r.derive (t.hold b).isSome, indicator := (t.bay b).indicator }
  indicator : (t.bay b).state ≠ (s.bay b).state → (t.bay b).indicator = t.deriveIndicator b
  otherBays : ∀ b', b' ≠ b → t.bay b' = { s.bay b' with indicator := (t.bay b').indicator }
  told : s.ZoneTold t b posted
  boost : s.Moves t b → ∀ k p, (s.bayConfig b).luminaire = some (k, p) →
    ∀ i, i < (s.stringConfig k).count → i ≤ p + 1 → p ≤ i + 1 →
      ((t.lampString k).luminaires.getD i Luminaire.reset).boost = some (s.after (s.stringConfig k).boostTime)
  groups : ∀ g, s.SameGroup t g ∧ (t.group g).q = (s.group g).q
    ∧ (g < s.groupCount → (s.bayConfig b).zone ∈ (s.groupConfig g).served → s.Moves t b →
        (s.zone (s.bayConfig b).zone).rest ≠ .active → (t.group g).p = t.composeP g)
    ∧ (¬ (g < s.groupCount ∧ (s.bayConfig b).zone ∈ (s.groupConfig g).served) → t.group g = s.group g)
  strings : ∀ k, t.lampString k = { s.lampString k with
      rest := (t.lampString k).rest, grant := (t.lampString k).grant, luminaires := (t.lampString k).luminaires
      fadeTimer := (t.lampString k).fadeTimer }
    ∧ (k < s.stringCount → (s.stringConfig k).zone = (s.bayConfig b).zone → s.Moves t b →
        (s.zone (s.bayConfig b).zone).rest ≠ .active → (t.lampString k).rest = .active)
    ∧ (¬ (k < s.stringCount ∧ (s.stringConfig k).zone = (s.bayConfig b).zone) →
        (t.lampString k).rest = (s.lampString k).rest
        ∧ ((∀ p, (s.bayConfig b).luminaire ≠ some (k, p)) → t.lampString k = s.lampString k))
  points : ∀ d, s.SamePoint t d
  rest : t.pending = s.pending ∧ t.loader = s.loader ∧ t.mem = s.mem ∧ t.stray = s.stray
    ∧ s.SameAir t ∧ s.SameHostSide t ∧ s.SamePath t

/-! ## Gas values and fume stages (R6 to R8, R10 to R12, R63, R82, R84 to R86) -/

/-- R82: the largest reading of a gas among the FRESH sensors of the zone, absent where none has one. -/
def LargestReading (s : State) (z : Nat) (gas : Gas) (v : Option Nat) : Prop :=
  let reading : Nat → Option Nat := fun n => match gas with
    | .co => (s.sensor n).co
    | .no2 => (s.sensor n).no2
  let read : Nat → Nat → Prop := fun n w =>
    n < s.sensorCount ∧ (s.sensorConfig n).zone = z ∧ (s.sensor n).health = .fresh ∧ reading n = some w
  match v with
  | none => ∀ n w, ¬ read n w
  | some v => (∃ n, read n v) ∧ ∀ n w, read n w → w ≤ v

/-- One gas of a zone has been evaluated against its value, if it has one (R84, R85). -/
def GasJudged (s t : State) (z : Nat) (gas : Gas) (m : Marks) : Prop :=
  match (t.zoneGas z).value gas with
  | some v => m.Judged v ((s.zoneGas z).stage gas) ((s.zoneGas z).timer gas)
      (some ⟨s.partTime, .seconds (s.zoneConfig z).fallHold⟩) ((t.zoneGas z).stage gas) ((t.zoneGas z).timer gas)
  | none => (t.zoneGas z).stage gas = (s.zoneGas z).stage gas ∧ (t.zoneGas z).timer gas = (s.zoneGas z).timer gas

/-- R63: the zone's promises have been recalled, and the DPs that showed an arrow to it are IDLE. -/
structure Recalled (s t : State) (z : Nat) : Prop where
  pool : t.pool = s.pool.filter fun p => p.target != .zone z
  counter : (t.zone z).recalled = (s.zone z).recalled + BitVec.ofNat 16 (s.zonePromises z)
  marks : t.MarkedDirty .zone z 12
    ∧ (1 ≤ s.zonePromises z → t.MarkedDirty .zone z 10 ∧ t.MarkedDirty .general 0 16)
  shown : ∀ d, d < s.pointCount → (s.point d).state = .showing → (s.point d).face.shown = some (.zone z) →
    t.point d = { s.point d with state := .idle, face := .summary (t.summaryNumber d), showTimer := none }
      ∧ t.MarkedDirty .point d 0 ∧ t.SignQueued d
  others : ∀ d, ¬ (d < s.pointCount ∧ (s.point d).state = .showing ∧ (s.point d).face.shown = some (.zone z)) →
    s.SamePoint t d

/-- The event makes zone `z` FUME_CLOSED. -/
def ClosesForFume (s t : State) (z : Nat) : Prop :=
  (t.zone z).access = .fumeClosed ∧ (s.zone z).access ≠ .fumeClosed

/-- R63: the notice of a recall, where there was a promise. -/
def recallNotice (s : State) (z : Nat) : List Notice :=
  if s.zonePromises z = 0 then []
  else [⟨.promisesRecalled, 2, some z, BitVec.ofNat 32 (s.zonePromises z), s.partTime⟩]

/-- R86: what an event leaves that evaluates the gases of zone `z`, with `posted` the records posted before: the fume stage
is the larger gas stage, and a change of it is told, re-derives access, moves the zone's rest and is handed to its groups and
strings. -/
structure FumeHandled (s t : State) (z : Nat) (posted : List Notice) : Prop where
  zone : let old := s.zone z
    let stage := max (t.zoneGas z).coStage (t.zoneGas z).no2Stage
    let rises := old.fume = 0 ∧ stage ≠ 0
    t.zone z = { old with
      fume := stage
      access := t.deriveAccess z
      recalled := (t.zone z).recalled
      rest := if rises then .active else old.rest
      wake := if rises ∧ old.rest ≠ .active then .fume else old.wake
      quiet := if rises then none
        else if stage = 0 ∧ old.fume ≠ 0 ∧ old.rest = .active then
          some ⟨s.partTime, .seconds (s.zoneConfig z).quietTime⟩
        else old.quiet }
  recalled : s.ClosesForFume t z → s.Recalled t z
  kept : ¬ s.ClosesForFume t z →
    t.pool = s.pool ∧ (t.zone z).recalled = (s.zone z).recalled ∧ ∀ d, s.SamePoint t d
  notices : let told := if (t.zone z).fume = (s.zone z).fume then []
      else [⟨.fumeStage, if 3 ≤ (t.zone z).fume then 3 else 1, some z, BitVec.ofNat 32 (t.zone z).fume, s.partTime⟩]
    (s.ClosesForFume t z → t.notices = s.notices.posting
      (posted ++ told ++ s.accessNotice t z ++ s.recallNotice z ++ s.overCapNotice t))
    ∧ (¬ s.ClosesForFume t z → t.notices = s.notices.posting
      (posted ++ told ++ s.accessNotice t z ++ s.overCapNotice t))
  indicators : (∀ b, t.bay b = { s.bay b with indicator := (t.bay b).indicator })
    ∧ if ((s.zone z).access = .fumeClosed ↔ (t.zone z).access = .fumeClosed) then t.bays = s.bays
      else ∀ b, if b < s.bayCount ∧ (s.bayConfig b).zone = z then
          (t.bay b).indicator = t.deriveIndicator b ∧ t.IndicatorQueued b
        else t.bay b = s.bay b
  groups : ∀ g, s.SameGroup t g ∧ (t.group g).q = (s.group g).q
    ∧ (g < s.groupCount → z ∈ (s.groupConfig g).served → (t.zone z).fume ≠ (s.zone z).fume → (t.group g).p = t.composeP g)
    ∧ (¬ (g < s.groupCount ∧ z ∈ (s.groupConfig g).served) → t.group g = s.group g)
  strings : ∀ k, (¬ (k < s.stringCount ∧ (s.stringConfig k).zone = z) → t.lampString k = s.lampString k)
    ∧ (k < s.stringCount → (s.stringConfig k).zone = z →
        t.lampString k = { s.lampString k with
          evacuation := if (t.zone z).fume = (s.zone z).fume then (s.lampString k).evacuation else (t.zone z).fume == 4
          override := (t.lampString k).evacuation || s.allFull != 0
          rest := if (t.zone z).rest = (s.zone z).rest then (s.lampString k).rest else (t.zone z).rest
          grant := (t.lampString k).grant, luminaires := (t.lampString k).luminaires
          fadeTimer := (t.lampString k).fadeTimer }
        ∧ ((s.lampString k).override = false → (t.lampString k).override = true →
            ∀ p, p < (s.stringConfig k).count → ((t.lampString k).luminaires.getD p Luminaire.reset).output = 63))
  otherZones : ∀ z', z' ≠ z → t.zone z' = s.zone z' ∧ t.zoneGas z' = s.zoneGas z'
  rest : t.pending = s.pending ∧ t.loader = s.loader ∧ t.mem = s.mem ∧ t.holds = s.holds ∧ t.stray = s.stray
    ∧ s.SameHostSide t ∧ s.SamePath t

/-! ## SERVICE entry (R18, R42, R76, R92, R111, R131, R141, R158, R171) -/

/-- R18, R92. -/
def EntryOfZones (t : State) : Prop :=
  (∀ z, t.zone z = if z < t.zoneCount then
      let blind := (t.zoneConfig z).blindStage
      { Zone.reset with
        unknown := (t.baysOf z).length, fume := blind, access := if 3 ≤ blind then .fumeClosed else .full
        quiet := if blind = 0 then some ⟨0, .seconds (t.zoneConfig z).quietTime⟩ else none }
    else Zone.reset)
  ∧ ∀ z, t.zoneGas z = if z < t.zoneCount then
      { ZoneGas.reset with coStage := (t.zoneConfig z).blindStage, no2Stage := (t.zoneConfig z).blindStage }
    else ZoneGas.reset

/-- R40, R42: every bay is pending, and the frame of bay 0 begins. -/
def EntryOfBayLink (t : State) : Prop :=
  t.bayLink.frame = some (.indicator 0 (t.bayConfig 0).indicatorAddress ⟨.off, .steady⟩) ∧ t.bayLink.last = 0
    ∧ t.bayLink.newer = false ∧ ∀ b, t.indicatorPending b = decide (0 < b ∧ b < t.bayCount)

/-- R76. -/
def EntryOfPoints (t : State) : Prop :=
  ∀ d, t.point d = if d < t.pointCount ∧ (t.pointConfig d).enabled = true then
      { Point.reset with state := .idle, face := .summary 0 }
    else Point.reset

/-- R104, R111. -/
def EntryOfGroups (t : State) : Prop :=
  (∀ g, t.group g = if g < t.groupCount then
      { Group.reset with
        p := t.composeP g, t := t.composeP g, state := .inFlight
        command := some ⟨t.composeP g, ⟨none, none, none⟩⟩ }
    else Group.reset)
  ∧ ∀ l, let queue := (List.range t.groupCount).filter fun g => (t.groupConfig g).lines.contains l
      t.line l = ⟨queue, match queue with
        | [] => .idle
        | g :: _ => .sending g (t.composeP g), false⟩

/-- R131: the level at which the outputs of a string enter SERVICE. -/
def entryLevel (t : State) (k : Nat) : Nat :=
  if (t.zone (t.stringConfig k).zone).fume = 4 then 63 else (t.stringConfig k).safety

/-- R131. -/
def EntryOfStrings (t : State) : Prop :=
  ∀ k, if k < t.stringCount then
      let evacuates := (t.zone (t.stringConfig k).zone).fume == 4
      t.lampString k = { LampString.reset with
        evacuation := evacuates, override := evacuates, grant := !t.budget.overCap
        luminaires := (t.lampString k).luminaires }
      ∧ ∀ p, (t.lampString k).luminaires.getD p Luminaire.reset = if p < (t.stringConfig k).count then
          ⟨none, t.entryLevel k, t.entryLevel k, t.entryLevel k⟩
        else Luminaire.reset
    else t.lampString k = LampString.reset

/-- R124, R125, R131: every device is pending, and the frame of sign 0, or without a sign that of string 0, begins. -/
def EntryOfLampLink (t : State) : Prop :=
  (∀ d, t.signPending d = decide (0 < d ∧ d < t.pointCount))
    ∧ (∀ k, t.stringPending k = decide ((0 < t.pointCount ∨ 0 < k) ∧ k < t.stringCount))
    ∧ t.lampLink.windowOpen = false ∧ t.lampLink.newer = false ∧ t.lampLink.lastSign = 0
    ∧ t.lampLink.lastString = (if 0 < t.pointCount then t.stringCount - 1 else 0)
    ∧ t.lampLink.signRun = (if 0 < t.pointCount ∧ 0 < t.stringCount then 1 else 0)
    ∧ t.lampLink.frame = (if 0 < t.pointCount then some (.sign 0 (t.pointConfig 0).signAddress (t.point 0).face)
        else if 0 < t.stringCount then
          some (.string 0 (t.stringConfig 0).lampAddress (List.replicate (t.stringConfig 0).count (t.entryLevel 0)))
        else none)

/-- R134, R135, R138, R141: the claims, which are all protected, the first grant pass over them and its notice. -/
def EntryOfBudget (t : State) : Prop :=
  let claim : Nat → Nat := fun k =>
    ((t.stringConfig k).count * (t.entryLevel k * (t.stringConfig k).rating) + 6299) / 6300
  let sum := ((List.range t.groupCount).map fun g => t.power g (t.composeP g)).sum
    + ((List.range t.stringCount).map claim).sum
  let exceeded := decide (t.plant.storeCap ≠ 0 ∧ t.plant.storeCap < sum)
  t.budget.cap = t.plant.storeCap ∧ t.budget.protectedPower = sum ∧ t.budget.grantedPower = sum
    ∧ t.budget.overCap = exceeded
    ∧ (∀ g, t.groupClaim g = if g < t.groupCount then ⟨t.composeP g, 0, t.power g (t.composeP g), 0, 0⟩
        else ⟨0, 0, 0, 0, 0⟩)
    ∧ (∀ k, t.stringClaim k = if k < t.stringCount then ⟨claim k, 0, !exceeded⟩ else ⟨0, 0, false⟩)
    ∧ t.notices = Notices.reset.posting
        (if exceeded = true then [⟨.overCap, 2, none, BitVec.ofNat 32 (sum - t.plant.storeCap), 0⟩] else [])

/-- R151, R154, R158: the whole image is dirty, its first 128 cells are queued, and the part claims the port unless an access
stands on it. -/
def EntryOfPath (s t : State) : Prop :=
  t.path = {
    dirty := t.imageCells, queue := t.imageCells.take 128, sweep := t.imageCells.head?
    drain := decide (96 ≤ t.imageCells.length), hostRun := 0
    port := match s.path.port with
      | .busy a => .busy a
      | _ => .granted (if t.budget.overCap = true then .notice else .injection)
    hostWaiting := s.path.hostWaiting, hostAnswer := s.path.hostAnswer }

/-! ## List entries (R163 to R165) -/

/-- R163: the address of the next word of an entry of which the runner has read `words`: its status word is left out. -/
def nextWordAddress (s : State) (words : List Word) : Nat :=
  if words = [] then s.runner.entryAddress else s.runner.entryAddress + 1 + words.length

/-- The words of the entry once the next one has been read. -/
def entryWords (s : State) (words : List Word) : List Word := words ++ [s.mem.readWord (s.nextWordAddress words)]

/-- The part once the next word of an entry has been read and has changed nothing but the runner's phase. -/
def afterRead (s : State) (words : List Word) (phase : Phase) : State :=
  { s with
    runner := { s.runner with phase := phase }
    path := { s.path with port := .busy ⟨s.nextWordAddress words, none, allBytes⟩ } }

/-- The runner, at the grant of its fetch, reads the last word of an entry with this command code, these option words and
these operands (R163, R176). -/
structure LastWord (s : State) (words : List Word) (command : Nat) (options operands : List Nat) : Prop where
  phase : s.runner.phase = .fetching words
  port : s.path.port = .granted .fetch
  header : ∃ h body, s.entryWords words = h :: body ∧ h.toNat % 256 = command ∧ h.toNat / 256 % 8 = options.length
    ∧ h.toNat / 65536 % 64 = operands.length ∧ body.map (·.toNat) = options ++ operands
  operandLimit : operands.length ≤ 40

/-- R164: the outcome of an entry whose options are legal: CONTINUE acts where it is carried. -/
def entryOutcome (options operands : List Nat) (refusal : Option Reason) : EntryOutcome :=
  ⟨refusal, false, false, decide (1 ∈ options.map (· % 256)), 2 + options.length + operands.length⟩

/-- R164: the command of an entry has taken its effect: its status is due, and memory, the part as a whole and the events
that wait are as they were. -/
structure CommandDone (s t : State) (words : List Word) (options operands : List Nat) : Prop where
  runner : t.runner = { s.runner with
    phase := .statusDue (entryOutcome options operands none), refusals := t.runner.refusals }
  port : t.path.port = .busy ⟨s.nextWordAddress words, none, allBytes⟩
  rest : t.mem = s.mem ∧ t.loader = s.loader ∧ t.pending = s.pending ∧ s.SamePath t

/-! ## FALLBACK (R173) -/

/-- The part in FALLBACK as a failed load leaves it: ATTN asserted, the broadcast timer running, one broadcast on every
link that was idle, and the rest as it was. -/
def EntersFallback (s t : State) : Prop :=
  t.loader.partState = .fallback ∧ t.loader.partTime = s.loader.partTime ∧ t.loader.storeReading = false
    ∧ t.loader.broadcastTimer = some ⟨s.loader.partTime, .seconds 10⟩
    ∧ t = { s with
        loader := t.loader
        notices := { s.notices with attn := true }
        lines := ⟨⟨s.lines.a.queue, .broadcast 0 6, false⟩, ⟨s.lines.b.queue, .broadcast 0 6, false⟩,
          ⟨s.lines.c.queue, .broadcast 0 6, false⟩⟩
        lampLink := { s.lampLink with
          frame := some (.broadcastString 0 (List.replicate 64 63)), windowOpen := false, newer := false }
        bayLink := { s.bayLink with frame := some (.broadcast 0 ⟨.off, .steady⟩), newer := false } }

/-- The links are idle, as they are while the part loads. -/
def LinksIdle (s : State) : Prop :=
  (∀ l, (s.line l).activity = .idle) ∧ s.lampLink.frame = none ∧ s.bayLink.frame = none

end State

end Sys2Proof.Machine
end

