-- ==== Sys2Proof/Certificates/Slice0/Obligations.lean ====
section
/-! DEFINITION. The statements for the provers. `s.Rested` is the invariant that every step keeps
(EveryStepLeavesNothingUndone): nothing that the end of an event does is left to do. `s.Settled` is that invariant but for
the memory port, which a host access may take while a claim of the part waits. -/

open Sys2Proof Sys2Proof.Machine

/-! ## The block as a whole -/

/-- A step takes the event at the front of the queue, which ends in a next state whatever it is and wherever it comes; with
none waiting the part idles (assumption 4, the model's choice). -/
def Obligations.StepHandlesFrontEvent : Prop :=
  (∀ (c : Instr) (rest : List Instr) (s : State),
    step { s with pending := c :: rest } = exec c { s with pending := rest })
    ∧ (∀ s : State, s.pending = [] → step s = .next s)
    ∧ ∀ (c : Instr) (s : State), ∃ t, exec c s = .next t

/-- The part under RESET: RESETTING at part time 0 with no window in force; zones AUTO, FULL and ACTIVE in clean air; bays
SILENT and UNKNOWN without a hold; decision points DISABLED and BLANK; no promise; sensors STALE after three misses; groups
READY at stage 0; strings REACHABLE and not under override; no cap; nothing queued, marked or staged; no bay counted and
every counter 0; the list runner IDLE. That no event waits is the model's choice (assumptions 4 and 11). -/
def Obligations.ResetValues : Prop :=
  let s := State.reset
  s.loader.partState = .resetting ∧ s.partTime = 0 ∧ s.pending = [] ∧ s.plant.windows = []
    ∧ (∀ z, (s.zone z).mode = .auto ∧ (s.zone z).extraAir = 0 ∧ (s.zone z).access = .full ∧ (s.zone z).rest = .active
        ∧ (s.zone z).wake = .none ∧ (s.zone z).quiet = none ∧ (s.zone z).fume = 0
        ∧ (∀ c, (s.zone z).free.get c = 0) ∧ (s.zone z).held = 0 ∧ (s.zone z).occupied = 0 ∧ (s.zone z).unknown = 0
        ∧ (s.zone z).outOfService = 0 ∧ (s.zone z).paced = 0 ∧ (s.zone z).unpromised = 0 ∧ (s.zone z).lapsed = 0
        ∧ (s.zone z).recalled = 0 ∧ (s.zone z).withdrawn = 0)
    ∧ (∀ b, (s.bay b).live = false ∧ (s.bay b).state = .unknown ∧ (s.bay b).debounce = none
        ∧ (s.bay b).silence = none ∧ (s.hold b) = none)
    ∧ (∀ d, (s.point d).state = .disabled ∧ (s.point d).face = .blank ∧ (s.point d).health = .ok
        ∧ (s.point d).passages = 0 ∧ (s.point d).turnedAway = 0 ∧ (s.point d).poolEmpty = 0)
    ∧ s.pool = []
    ∧ (∀ n, (s.sensor n).health = .stale ∧ (s.sensor n).misses = 3 ∧ (s.sensor n).co = none)
    ∧ (∀ g, (s.group g).k = 0 ∧ (s.group g).state = .ready ∧ (s.group g).command = none
        ∧ (s.group g).failureCount = 0 ∧ (s.group g).failedCommands = 0)
    ∧ (∀ k, (s.lampString k).link = .reachable ∧ (s.lampString k).override = false ∧ (s.lampString k).grant = false)
    ∧ s.budget.cap = 0 ∧ s.budget.overCap = false
    ∧ s.path.queue = [] ∧ s.path.dirty = [] ∧ s.path.drain = false ∧ s.path.hostRun = 0 ∧ s.path.sweep = none
    ∧ s.notices.staging = [] ∧ s.notices.writeIndex = 0 ∧ s.notices.readIndex = 0 ∧ s.notices.threshold = 0
    ∧ s.notices.lost = 0 ∧ s.notices.guarded = 0 ∧ s.notices.rejected = 0 ∧ s.notices.attn = false
    ∧ s.runner.phase = .idle ∧ s.runner.result = .none ∧ s.runner.entriesDone = 0 ∧ s.runner.abort = false
    ∧ s.runner.refusals = 0 ∧ s.stray = 0 ∧ s.allFull = 0

/-- Every invariant below that a step keeps holds of the part under RESET. -/
def Obligations.InvariantsAtReset : Prop :=
  State.reset.Rested ∧ State.reset.mem.wf = true ∧ State.reset.QueueOk ∧ State.reset.PoolsOk ∧ State.reset.CapRespected
    ∧ State.reset.GrantsStand ∧ State.reset.Configured ∧ State.reset.Derived ∧ State.reset.CountsAddUp

/-! ## Invariants that every step keeps -/

/-- A step from a state at rest ends at rest: every IDLE decision point shows its summary number; in SERVICE no idle drive
line has a queue, the lamp link is idle only while no device is eligible, and the bay link only while no bay is pending; no
record is staged while the ring is full; the drain flag is set at 96 entries of the queue; and the memory port is free only
while no claim waits. -/
def Obligations.EveryStepLeavesNothingUndone : Prop :=
  ∀ s t : State, s.Rested → step s = .next t → t.Rested

/-- Memory keeps its canonical form: byte addresses strictly rising, and no byte listed that reads as an unlisted one. -/
def Obligations.EveryStepKeepsMemoryCanonical : Prop :=
  ∀ s t : State, s.mem.wf = true → step s = .next t → t.mem.wf = true

/-- R31, R47, R151, R155: no two entries of the injection queue name the same cell, it never holds more than 128, and the
pools and notice staging keep to their sizes. -/
def Obligations.EveryStepKeepsTheBounds : Prop :=
  ∀ s t : State, step s = .next t → (s.QueueOk → t.QueueOk) ∧ (s.PoolsOk → t.PoolsOk)

/-- R137, R138, R140: after every event the recorded grants, totals and OVER_CAP flag are those of a pass over the recorded
claims and the cap (strings whole in index order, then groups in index order at the highest stage that fits), and while the
cap is not 0 the granted power never exceeds the larger of the cap and the protected power. -/
def Obligations.EveryStepKeepsTheGrants : Prop :=
  ∀ s t : State, step s = .next t →
    (s.Configured → s.GrantsStand → t.GrantsStand) ∧ (s.CapRespected → t.CapRespected)

/-- Memory: the enabled bytes of a word are written, and every other byte reads as before. -/
def Obligations.WriteWordWritesEnabledBytes : Prop :=
  ∀ (m : Memory) (a : Nat) (w : Word) (e : ByteEnables) (k : Nat), m.wf = true →
    (m.writeWord a w e).readByte k =
      if k / 4 = a ∧ e.getLsbD (k % 4) = true then byteOf w (k % 4) else m.readByte k

/-! ## Start-up Loader: RESET, the load, SERVICE entry, FALLBACK and part time -/

/-- RESET_ASSERT returns every block to its reset values; memory, an access already presented and the word last answered are
kept; a host access that waits behind that access is kept as a plain one, and one that waits for a port that no access stands
on is granted it at once and passes to memory (R142, R154, R169). -/
def Obligations.ResetReturnsEveryBlock : Prop :=
  ∀ s : State,
    (s.path.hostWaiting = none ∨ s.path.port.isBusy = true →
      exec .resetAssert s = .next { State.reset with
        pending := s.pending, mem := s.mem,
        path := { MemoryPath.reset with
          port := match s.path.port with
            | .busy a => .busy a
            | _ => .free,
          hostWaiting := s.path.hostWaiting.map fun h => { h with plain := true },
          hostAnswer := s.path.hostAnswer } })
    ∧ (∀ a en plain, s.path.hostWaiting = some ⟨a, none, en, plain⟩ → s.path.port.isBusy = false →
      exec .resetAssert s = .next { State.reset with
        pending := s.pending, mem := s.mem,
        path := { MemoryPath.reset with
          port := .busy ⟨a.toNat, none, en⟩, hostAnswer := some ⟨a, s.mem.readWord a.toNat, false⟩ } })
    ∧ (∀ a data en plain, s.path.hostWaiting = some ⟨a, some data, en, plain⟩ → s.path.port.isBusy = false →
      exec .resetAssert s = .next { State.reset with
        pending := s.pending, mem := s.mem.writeWord a.toNat data en,
        path := { MemoryPath.reset with
          port := .busy ⟨a.toNat, some data, en⟩, hostAnswer := s.path.hostAnswer } })

/-- RESET_RELEASE: RESETTING goes to LOADING, and the store is read from its start; that in another state nothing happens is
the model's choice (assumption 2). STORE_READ_DONE while the image is not whole: its bytes, however many (assumption 10, the
model's choice), join those read, the CRC goes over the image so far, and the load goes on. -/
def Obligations.LoadBeginsAndGoesOn : Prop :=
  ∀ s : State, s.Rested →
    exec .resetRelease s = .next
      (if s.loader.partState = .resetting then
        { s with loader := { partState := .loading, partTime := 0, storeBytes := [], storeCrc := 0xFFFFFFFF,
                             storeReading := true, broadcastTimer := none } }
      else s)
    ∧ ∀ data : List Byte, s.loader.partState = .loading → s.loader.storeReading = true →
        s.loader.storeCrc = (imageBody s.loader.storeBytes).foldl crcByte 0xFFFFFFFF →
        ((s.loader.storeBytes ++ data).length < 16
          ∨ (headerOk (s.loader.storeBytes ++ data) = true ∧ imageWhole (s.loader.storeBytes ++ data) = false)) →
        exec (.storeReadDone data) s = .next { s with
          loader := { s.loader with
            storeBytes := s.loader.storeBytes ++ data
            storeCrc := (imageBody (s.loader.storeBytes ++ data)).foldl crcByte 0xFFFFFFFF } }

/-- STORE_READ_TIMEOUT takes the part to FALLBACK, and so does a store image that fails a check: its header's, made as soon
as 16 bytes are read (assumption 25, the model's choice), or, once it is whole, its CRC's or a section's. -/
def Obligations.FailedLoadGoesToFallback : Prop :=
  ∀ (data : List Byte) (s : State), s.Rested → s.loader.partState = .loading → s.loader.storeReading = true →
    s.loader.storeCrc = (imageBody s.loader.storeBytes).foldl crcByte 0xFFFFFFFF → s.LinksIdle →
    (∃ t, exec .storeReadTimeout s = .next t ∧ s.EntersFallback t)
      ∧ (16 ≤ (s.loader.storeBytes ++ data).length →
          (headerOk (s.loader.storeBytes ++ data) = false
            ∨ (imageWhole (s.loader.storeBytes ++ data) = true
                ∧ (~~~ (imageBody (s.loader.storeBytes ++ data)).foldl crcByte 0xFFFFFFFF
                      ≠ BitVec.ofNat 32 (headerWord (s.loader.storeBytes ++ data) 3)
                    ∨ loadImage (imageBody (s.loader.storeBytes ++ data)) = none))) →
          ∃ t, exec (.storeReadDone data) s = .next t ∧ s.EntersFallback t)

/-- In FALLBACK: BROADCAST_TIMER_EXPIRY starts the timer again and makes one broadcast, to address 0: an idle drive line sends
a command for stage 6, the idle lamp link 64 levels of 63 and the idle bay link colour OFF (STEADY: assumption 12), and a link
still sending keeps one newer broadcast waiting (assumption 17: the model's reading of what becomes of the older ones).
BROADCAST_FRAME_DONE begins a newer broadcast that waits, or on the lamp link the sign frame CLOSED after the string frame,
and otherwise leaves the link idle. -/
def Obligations.BroadcastsRepeat : Prop :=
  let levels : LampFrame := .broadcastString 0 (List.replicate 64 63)
  let closed : LampFrame := .broadcastSign 0 .closed
  let dark : BayFrame := .broadcast 0 ⟨.off, .steady⟩
  let begun : LineRecord → LineRecord := fun r =>
    if r.activity = .broadcast 0 6 then { r with newer := true } else { r with activity := .broadcast 0 6, newer := false }
  ∀ s : State, s.Rested → s.loader.partState = .fallback →
    (s.loader.broadcastTimer.isSome = true →
      exec .broadcastTimerExpiry s = .next { s with
        loader := { s.loader with broadcastTimer := some ⟨s.loader.partTime, .seconds 10⟩ }
        lines := ⟨begun s.lines.a, begun s.lines.b, begun s.lines.c⟩
        lampLink := if s.lampLink.frame.isSome = true then { s.lampLink with newer := true }
          else { s.lampLink with frame := some levels, windowOpen := false, newer := false }
        bayLink := if s.bayLink.frame.isSome = true then { s.bayLink with newer := true }
          else { s.bayLink with frame := some dark, newer := false } })
      ∧ (∀ l, (s.line l).activity = .broadcast 0 6 →
          exec (.broadcastFrameDone (.drive l)) s = .next { s with
            lines := s.lines.set l (if (s.line l).newer = true then { s.line l with newer := false }
              else { s.line l with activity := .idle }) })
      ∧ (s.lampLink.frame = some levels →
          exec (.broadcastFrameDone .lamp) s = .next { s with
            lampLink := if s.lampLink.newer = true then { s.lampLink with newer := false }
              else { s.lampLink with frame := some closed } })
      ∧ (s.lampLink.frame = some closed →
          exec (.broadcastFrameDone .lamp) s = .next { s with
            lampLink := if s.lampLink.newer = true then { s.lampLink with frame := some levels, newer := false }
              else { s.lampLink with frame := none } })
      ∧ (s.bayLink.frame = some dark →
          exec (.broadcastFrameDone .bay) s = .next { s with
            bayLink := if s.bayLink.newer = true then { s.bayLink with newer := false }
              else { s.bayLink with frame := none } })

/-- PART_TIME_ADVANCE with every lapse taken that part time has made due: part time rises by one; a hold with 60 seconds left
is nearing, and its bay's indicator mode is derived afresh and, where it changes, pending; every sensor's age rises by one and
stops at 65,535; the HOLD cell of every bay with a hold and the AGE cell of every sensor whose age was below its limit are
marked dirty; and nothing else is changed. With a lapse of a hold, a promise or a boost still to be taken no advance arises
(assumption 20, the model's reading of R33). -/
def Obligations.PartTimeAdvances : Prop :=
  ∀ s : State, s.Rested → s.Configured → s.Derived → s.inService = true →
    ((∀ h ∈ s.holds, s.reached h.expiry = false) → (∀ p ∈ s.pool, s.reached p.expiry = false) →
      (∀ k p expiry, s.boostOf k p = some expiry → s.reached expiry = false) →
      ∃ t, exec .partTimeAdvance s = .next t
        ∧ t.loader = { s.loader with partTime := s.partTime + 1 }
        ∧ t.holds = s.holds.map (fun h => if h.expiry - (s.partTime + 1) = 60 then { h with nearing := true } else h)
        ∧ (∀ b, t.bay b = { s.bay b with indicator := (t.bay b).indicator })
        ∧ (∀ h ∈ s.holds, h.expiry - (s.partTime + 1) = 60 → (t.bay h.bay).indicator = t.deriveIndicator h.bay)
        ∧ (∀ b, (∀ h ∈ s.holds, h.bay = b → h.expiry - (s.partTime + 1) ≠ 60) → t.bay b = s.bay b)
        ∧ (∀ b, (t.bay b).indicator ≠ (s.bay b).indicator → t.IndicatorQueued b ∧ t.MarkedDirty .bay b 0)
        ∧ (∀ b, (t.bay b).indicator = (s.bay b).indicator → t.indicatorPending b = s.indicatorPending b)
        ∧ (s.bayLink.frame.isSome = true → t.bayLink = { s.bayLink with pending := t.bayLink.pending })
        ∧ ((∀ b, (t.bay b).indicator = (s.bay b).indicator) → t.bayLink = s.bayLink)
        ∧ (∀ n, t.sensor n = if n < s.sensorCount then
            { s.sensor n with ageStopped := decide (65534 ≤ s.sensorAge n) } else s.sensor n)
        ∧ (∀ n, n < s.sensorCount → t.sensorAge n = min 65535 (s.sensorAge n + 1))
        ∧ t.MarkedDirty .general 0 1
        ∧ (∀ h ∈ s.holds, t.MarkedDirty .bay h.bay 1)
        ∧ (∀ n, n < s.sensorCount → s.sensorAge n < 65535 → t.MarkedDirty .sensor n 2)
        ∧ t = { s with
            loader := t.loader, holds := t.holds, bays := t.bays, bayLink := t.bayLink, sensors := t.sensors, path := t.path }
        ∧ s.SamePath t)
    ∧ ((∃ h ∈ s.holds, s.reached h.expiry = true) ∨ (∃ p ∈ s.pool, s.reached p.expiry = true)
        ∨ (∃ k p expiry, s.boostOf k p = some expiry ∧ s.reached expiry = true) →
      exec .partTimeAdvance s = .next s)

/-- SERVICE entry: the load that passes every check gives every block the values of its chapter at SERVICE entry, whatever
the part held before. Zones and gases: at the blind stage. Bays: at reset values, all pending but bay 0, whose frame begins.
Decision points: IDLE with their summary where the store enables them. Groups: P composed, Q and G at 0, so that the target is
P, and the first command for it on each line's queue in index order. Strings: at the safety minimum, or at 63 under evacuation.
Lamp link: sign 0 first, or string 0 without a sign. Claims: protected only, granted unless they exceed the cap, which is
told. Memory path: every REPORT and DEMAND cell dirty, the first 128 queued, the sweep at the first. While the part loads no
claim of its own holds the memory port, so a host access waits there only behind an access that stands on it. -/
def Obligations.ServiceEntry : Prop :=
  ∀ (data : List Byte) (p : Plant) (s : State), (s.path.hostWaiting = none ∨ s.path.port.isBusy = true) →
    s.loader.partState = .loading → s.loader.storeReading = true →
    s.loader.storeCrc = (imageBody s.loader.storeBytes).foldl crcByte 0xFFFFFFFF →
    headerOk (s.loader.storeBytes ++ data) = true → imageWhole (s.loader.storeBytes ++ data) = true →
    ~~~ (imageBody (s.loader.storeBytes ++ data)).foldl crcByte 0xFFFFFFFF
      = BitVec.ofNat 32 (headerWord (s.loader.storeBytes ++ data) 3) →
    loadImage (imageBody (s.loader.storeBytes ++ data)) = some p →
    ∃ t, exec (.storeReadDone data) s = .next t
      ∧ t = { State.reset with
          pending := s.pending, mem := s.mem, plant := p, loader := { Loader.reset with partState := .service }
          airLink := if t.sensorCount = 0 then none else some ⟨0, false⟩
          zones := t.zones, gas := t.gas, bayLink := t.bayLink, points := t.points, groups := t.groups, lines := t.lines
          strings := t.strings, lampLink := t.lampLink, budget := t.budget, notices := t.notices, path := t.path }
      ∧ t.EntryOfZones ∧ t.EntryOfBayLink ∧ t.EntryOfPoints ∧ t.EntryOfGroups ∧ t.EntryOfStrings ∧ t.EntryOfLampLink
      ∧ t.EntryOfBudget ∧ s.EntryOfPath t

/-! ## Further invariants -/

/-- R4, R68, R71, R89, R97, R123, R170: every check of the load stands as long as the configuration does, whatever list
entries change in it (no cycle of onward links, marks and pacing in their ranges, stage maps that never fall), but for the
weight tables, which a CHAIN may leave with an index beyond its entries (R56); outside SERVICE there is no configuration, and
a bay beyond the count keeps its reset values and has no hold (assumption 13). -/
def Obligations.EveryStepKeepsTheConfiguration : Prop :=
  ∀ s t : State, s.Configured → step s = .next t → t.Configured

/-- R7, R29, R31, R33, R35, R120: a derived state is the one held after every event; a bay has one hold at most, of 86,400
seconds at most, and none where a car stands. -/
def Obligations.EveryStepKeepsDerivedStates : Prop :=
  ∀ s t : State, s.Configured → s.Derived → step s = .next t → t.Derived

/-- R3: the counts of every zone are the numbers of its bays in each state, after every event. -/
def Obligations.EveryStepKeepsTheCounts : Prop :=
  ∀ s t : State, s.Configured → s.Derived → s.CountsAddUp → step s = .next t → t.CountsAddUp

/-! ## Zone Table -/

/-- QUIET_TIMER_EXPIRY: the zone goes to rest, QUIET or, in mode DORMANT, ASLEEP; its REST cell is marked dirty; and its
rest is handed to its serving groups and its strings. -/
def Obligations.QuietTimerRestsTheZone : Prop :=
  ∀ (zone : Nat) (s : State), s.Rested → s.Configured → s.inService = true → zone < s.zoneCount →
    (s.zone zone).quiet.isSome = true →
    let rest := if (s.zone zone).mode = .dormant then Rest.asleep else Rest.quiet
    ∃ t, exec (.quietTimerExpiry zone) s = .next t
      ∧ t.zone zone = { s.zone zone with rest := rest, quiet := none }
      ∧ (∀ z, z ≠ zone → t.zone z = s.zone z)
      ∧ t.MarkedDirty .zone zone 5
      ∧ (∀ g, g < s.groupCount → zone ∈ (s.groupConfig g).served → (t.group g).p = t.composeP g)
      ∧ (∀ g, ¬ (g < s.groupCount ∧ zone ∈ (s.groupConfig g).served) → t.group g = s.group g)
      ∧ (∀ g, s.SameGroup t g ∧ (t.group g).q = (s.group g).q)
      ∧ (∀ k, k < s.stringCount → (s.stringConfig k).zone = zone → t.lampString k = { s.lampString k with
          rest := rest, grant := (t.lampString k).grant, luminaires := (t.lampString k).luminaires
          fadeTimer := (t.lampString k).fadeTimer })
      ∧ (∀ k, ¬ (k < s.stringCount ∧ (s.stringConfig k).zone = zone) → t.lampString k = s.lampString k)
      ∧ t.pool = s.pool ∧ s.SameBays t ∧ t.bayLink = s.bayLink ∧ (∀ d, s.SamePoint t d)
      ∧ s.SameGround t ∧ s.SameAir t ∧ s.SameHostSide t ∧ s.SamePath t

/-! ## Bay Table -/

/-- BAY_REPORT with no configured bay's address is counted and does nothing else. BAY_REPORT of a LIVE bay with no SENSOR
reason, without the fault flag: the silence timer restarts, and the debounce is started, kept or cancelled by R25 (CHANGE) or
R26 (ALIVE); nothing else changes. -/
def Obligations.QuietReports : Prop :=
  ∀ (address : Nat) (presence : Presence) (kind : ReportKind) (s : State), s.Rested → s.inService = true →
    (s.bayOfSensor address = none → ∀ fault,
      ∃ t, exec (.bayReport address presence fault kind) s = .next t
        ∧ t = { s with stray := s.stray + 1, path := t.path } ∧ t.MarkedDirty .general 0 17 ∧ s.SamePath t)
    ∧ ∀ b, s.Derived → s.bayOfSensor address = some b → (s.bay b).live = true → (s.bay b).reasonSensor = false →
        let agrees := (presence == .present) == (s.bay b).occupied
        let started : Debounce := match presence with
          | .present => ⟨.arrive, ⟨s.partTime, .seconds s.plant.arriveDebounce⟩⟩
          | .empty => ⟨.depart, ⟨s.partTime, .seconds s.plant.departDebounce⟩⟩
        exec (.bayReport address presence false kind) s = .next { s with
          bays := s.bays.modify b fun r => { r with
            silence := some ⟨s.partTime, .seconds 180⟩
            debounce := if agrees = true then (if kind = .change then none else r.debounce)
              else if r.debounce.isSome = true then r.debounce else some started } }

/-- BAY_REPORT with the fault flag takes the bay out of service with reason SENSOR; a report without it that finds the bay
SILENT or with reason SENSOR takes its presence at once and removes the reason. The zone, its promises and its activity follow
as for every change of a bay's state. -/
def Obligations.ReportChangesTheBay : Prop :=
  ∀ (address b : Nat) (presence : Presence) (kind : ReportKind) (s : State), s.Rested → s.Configured → s.Derived →
    s.inService = true → s.bayOfSensor address = some b →
    (∃ t, exec (.bayReport address presence true kind) s = .next t
      ∧ s.BayHandled t b { s.bay b with
          live := true, silence := some ⟨s.partTime, .seconds 180⟩, reasonSensor := true, debounce := none }
        (if (s.bay b).reasonSensor = true then [] else [⟨.bayOut, 1, some b, 0, s.partTime⟩])
      ∧ t.holds = s.holds ∧ t.plant = s.plant ∧ t.runner = s.runner
      ∧ ((s.bay b).reasonSensor = false → t.MarkedDirty .bay b 0))
    ∧ ((s.bay b).live = false ∨ (s.bay b).reasonSensor = true →
      ∃ t, exec (.bayReport address presence false kind) s = .next t
        ∧ s.BayHandled t b { s.bay b with
            live := true, silence := some ⟨s.partTime, .seconds 180⟩, reasonSensor := false
            occupied := presence == .present }
          (if presence = .present ∧ (s.hold b).isSome = true then [⟨.holdTaken, 0, some b, 0, s.partTime⟩] else [])
        ∧ t.holds = (if presence = .present then s.holds.filter (fun h => h.bay != b) else s.holds)
        ∧ t.plant = s.plant ∧ t.runner = s.runner
        ∧ ((s.bay b).reasonSensor = true → t.MarkedDirty .bay b 0))

/-- DEBOUNCE_EXPIRY turns the occupancy in the debounce's direction, and takes the hold of a bay where a car now stands;
SILENCE_EXPIRY forgets the occupancy, the debounce and the report; HOLD_LAPSE removes the hold whose expiry part time has
reached (modulo 2^32: assumption 3, the model's reading). The zone, its promises and its activity follow as for every change
of a bay's state. -/
def Obligations.BayTimersExpire : Prop :=
  ∀ (b : Nat) (s : State), s.Rested → s.Configured → s.Derived → s.inService = true → b < s.bayCount →
    (∀ d, (s.bay b).debounce = some d →
      let arrives := d.direction == .arrive
      ∃ t, exec (.debounceExpiry b) s = .next t
        ∧ s.BayHandled t b { s.bay b with debounce := none, occupied := arrives }
          (if arrives = true ∧ (s.hold b).isSome = true then [⟨.holdTaken, 0, some b, 0, s.partTime⟩] else [])
        ∧ t.holds = (if arrives = true then s.holds.filter (fun h => h.bay != b) else s.holds)
        ∧ t.plant = s.plant ∧ t.runner = s.runner)
    ∧ ((s.bay b).silence.isSome = true →
      ∃ t, exec (.silenceExpiry b) s = .next t
        ∧ s.BayHandled t b { s.bay b with live := false, occupied := false, debounce := none, silence := none } []
        ∧ t.holds = s.holds ∧ t.plant = s.plant ∧ t.runner = s.runner)
    ∧ (∀ h, s.hold b = some h → s.reached h.expiry = true →
      ∃ t, exec (.holdLapse b) s = .next t
        ∧ s.BayHandled t b (s.bay b) [⟨.holdLapsed, 1, some b, 0, s.partTime⟩]
        ∧ t.holds = s.holds.filter (fun h => h.bay != b) ∧ t.plant = s.plant ∧ t.runner = s.runner
        ∧ t.MarkedDirty .bay b 0 ∧ t.MarkedDirty .bay b 1 ∧ t.MarkedDirty .general 0 16)

/-- INDICATOR_FRAME_DONE: the link serves the pending bay that comes next in index order after the last one served, passing
from the highest to the lowest, samples its mode and clears its mark; with none pending it is idle. -/
def Obligations.IndicatorFrameServesTheNext : Prop :=
  ∀ s : State, s.Rested → s.inService = true → s.bayLink.sendsIndicator = true →
    ((∀ b, b < s.bayCount → s.indicatorPending b = false) →
      exec .indicatorFrameDone s = .next { s with bayLink := { s.bayLink with frame := none } })
    ∧ (∀ b, NextInTurn s.bayLink.last s.bayCount s.indicatorPending b →
        exec .indicatorFrameDone s = .next { s with
          bayLink := { s.bayLink with
            frame := some (.indicator b (s.bayConfig b).indicatorAddress (s.bay b).indicator)
            last := b, pending := s.bayLink.pending.set b false } })

/-! ## Guidance Unit -/

/-- R55: the ordered search takes the first eligible entry of the chain, whatever zones were found paced before, and leaves
the pointer as it is; the zones of the paced entries before it join those found paced, each once. A passage of another class
that finds nothing searches again for ORDINARY, with the paced zones of both (R49, R52). -/
def Obligations.OrderedSearchTakesTheFirst : Prop :=
  ∀ (s : State) (d : Nat) (c : BayClass), (s.pointConfig d).policy = .ordered →
    let chain := (s.pointConfig d).chain
    (∀ seen : List Nat, (search s d c seen).1 =
          (chain.find? fun entry => s.examine entry c == .eligible).map (fun entry => (entry, (s.point d).pointer))
        ∧ (seen.Nodup → (search s d c seen).2.Nodup)
        ∧ ∀ z, z ∈ (search s d c seen).2 ↔ z ∈ seen ∨ ∃ (i : Nat) (entry : ChainEntry), chain[i]? = some entry
            ∧ entry.target = .zone z
            ∧ s.examine entry c = .paced
            ∧ ∀ j, j < i → ∀ entry', chain[j]? = some entry' → s.examine entry' c ≠ .eligible)
      ∧ (∀ entry pointer, (search s d c []).1 = some (entry, pointer) →
          choose s d c = ⟨some (entry, pointer, c), (search s d c []).2⟩)
      ∧ ((search s d c []).1 = none →
          let again := search s d .ordinary (search s d c []).2
          choose s d c = if c = .ordinary then ⟨none, (search s d c []).2⟩
            else ⟨again.1.map fun x => (x.1, x.2, .ordinary), again.2⟩)
      ∧ ∀ (e : Ev) (pointer : Nat), e.s = s → e.movePointer d pointer = e

/-- R56: the weighted search examines the phases from the pointer on, once round the 32, and takes the first whose entry is
eligible; a phase that is EMPTY or names no entry of the chain is passed over. The pointer after it is that phase plus 1,
modulo 32; with none taken it does not move, so that the search for ORDINARY that may follow starts there too. The zones of
the paced entries before it join those found paced, each once. -/
def Obligations.WeightedSearchTakesThePhase : Prop :=
  ∀ (s : State) (d : Nat) (c : BayClass) (seen : List Nat), (s.pointConfig d).policy = .weighted →
    let cfg := s.pointConfig d
    let phase : Nat → Nat := fun i => ((s.point d).pointer + i) % 32
    let names : Nat → ChainEntry → Prop := fun i entry =>
      ∃ index, cfg.weights.getD (phase i) none = some index ∧ cfg.chain[index]? = some entry
    let passed : Nat → Prop := fun i => ∀ entry, names i entry → s.examine entry c ≠ .eligible
    (∀ i entry, i < 32 → names i entry → s.examine entry c = .eligible → (∀ j, j < i → passed j) →
        (search s d c seen).1 = some (entry, (phase i + 1) % 32))
      ∧ ((∀ i, i < 32 → passed i) → (search s d c seen).1 = none)
      ∧ (seen.Nodup → (search s d c seen).2.Nodup)
      ∧ (∀ z, z ∈ (search s d c seen).2 ↔ z ∈ seen ∨ ∃ i entry, i < 32 ∧ names i entry ∧ entry.target = .zone z
          ∧ s.examine entry c = .paced ∧ ∀ j, j < i → passed j)
      ∧ ∀ (e : Ev) (pointer : Nat), e.s = s → d < 24 →
          (e.movePointer d pointer).s = { s with points := s.points.modify d fun p => { p with pointer := pointer } }

/-- PASSAGE at a DISABLED DP is counted and does nothing else; a passage that finds no entry turns the car away: the DP
shows FULL for its show time, having consumed a transit promise to it and counted the zones found paced. -/
def Obligations.PassageWithoutTarget : Prop :=
  ∀ (d : Nat) (input : DetectorInput) (c : BayClass) (s : State), s.Rested → s.Configured → s.inService = true →
    d < s.pointCount → s.inputClass d input = some c →
    ((s.point d).state = .disabled →
      ∃ t, exec (.passage d input) s = .next t
        ∧ t = { s with points := s.points.modify d fun p => { p with passages := p.passages + 1 }, path := t.path }
        ∧ t.MarkedDirty .point d 1 ∧ s.SamePath t)
    ∧ ((s.point d).state ≠ .disabled →
      let choice := choose { s with pool := s.consumed (.point d) c } d c
      choice.found = none →
      ∃ t, exec (.passage d input) s = .next t
        ∧ t.point d = { s.point d with
            passages := (s.point d).passages + 1, turnedAway := (s.point d).turnedAway + 1
            state := .fullShown, face := .full
            showTimer := some ⟨s.partTime, .seconds (s.pointConfig d).showTime⟩ }
        ∧ (∀ d', d' ≠ d → s.SamePoint t d')
        ∧ t.pool = s.consumed (.point d) c
        ∧ (∀ z, z < s.zoneCount → t.zone z = { s.zone z with
            paced := if z ∈ choice.paced then (s.zone z).paced + 1 else (s.zone z).paced })
        ∧ t.MarkedDirty .point d 0 ∧ t.MarkedDirty .point d 1 ∧ t.MarkedDirty .point d 2 ∧ t.SignQueued d
        ∧ t = { s with points := t.points, pool := t.pool, zones := t.zones, lampLink := t.lampLink, path := t.path }
        ∧ s.SamePath t)

/-- PASSAGE that finds an entry: the DP shows the arrow to it for its show time, a promise is made to it where the pool has
an entry free, and a zone takes the promise as activity: it is ACTIVE, woken by PROMISE where it was at rest, its quiet timer
starts again in clean air, and its access is re-derived. A zone that wakes tells the groups that serve it, which compose P
afresh, and its strings. -/
def Obligations.PassageDirects : Prop :=
  ∀ (d : Nat) (input : DetectorInput) (c : BayClass) (s : State) (entry : ChainEntry) (pointer : Nat)
    (used : BayClass), s.Rested → s.Configured → s.Derived → s.inService = true →
    d < s.pointCount → s.inputClass d input = some c → (s.point d).state ≠ .disabled →
    (choose { s with pool := s.consumed (.point d) c } d c).found = some (entry, pointer, used) →
    let paced := (choose { s with pool := s.consumed (.point d) c } d c).paced
    let free := (s.consumed (.point d) c).length < 256
    let wakes : Nat → Prop := fun z => entry.target = .zone z ∧ (s.zone z).rest ≠ .active
    ∃ t, exec (.passage d input) s = .next t
      ∧ t.point d = { s.point d with
          passages := (s.point d).passages + 1
          pointer := if (s.pointConfig d).policy = .weighted then pointer else (s.point d).pointer
          state := .showing
          face := .arrow entry.arrow (t.arrowNumber entry.target used) (c != .ordinary) entry.target
          showTimer := some ⟨s.partTime, .seconds (s.pointConfig d).showTime⟩
          poolEmpty := if free then (s.point d).poolEmpty else (s.point d).poolEmpty + 1 }
      ∧ (∀ d', d' ≠ d → s.SamePoint t d')
      ∧ t.pool = (if free then s.consumed (.point d) c ++ [⟨entry.target, used, s.after (match entry.target with
          | .zone z => (s.zoneConfig z).promiseLifetime
          | .point _ => (s.pointConfig d).transitLifetime)⟩] else s.consumed (.point d) c)
      ∧ (∀ z, z < s.zoneCount → (t.zone z).paced =
          if z ∈ paced then (s.zone z).paced + 1 else (s.zone z).paced)
      ∧ (∀ z, entry.target = .zone z →
          t.zone z = { (s.zone z).awake .promise s.partTime (s.zoneConfig z).quietTime with
            lastPromise := s.partTime, paced := (t.zone z).paced, access := t.deriveAccess z }
          ∧ ((s.zone z).rest ≠ .active → t.MarkedDirty .zone z 5) ∧ (free → t.MarkedDirty .zone z 10))
      ∧ (∀ z, entry.target ≠ .zone z → t.zone z = { s.zone z with paced := (t.zone z).paced })
      ∧ (∀ g, s.SameGroup t g ∧ (t.group g).q = (s.group g).q
          ∧ (g < s.groupCount → (∃ z, wakes z ∧ z ∈ (s.groupConfig g).served) → (t.group g).p = t.composeP g)
          ∧ ((∀ z, wakes z → z ∉ (s.groupConfig g).served) → t.group g = s.group g))
      ∧ (∀ k, (k < s.stringCount → wakes (s.stringConfig k).zone → t.lampString k = { s.lampString k with
            rest := .active, grant := (t.lampString k).grant, luminaires := (t.lampString k).luminaires
            fadeTimer := (t.lampString k).fadeTimer })
          ∧ (¬ (k < s.stringCount ∧ wakes (s.stringConfig k).zone) → t.lampString k = s.lampString k))
      ∧ ((∀ z, ¬ wakes z) → t.groups = s.groups ∧ t.lines = s.lines ∧ t.strings = s.strings ∧ t.budget = s.budget)
      ∧ t.notices = s.notices.posting ((if free then [] else [⟨.poolEmpty, 2, some d, 0, s.partTime⟩])
          ++ (match entry.target with
            | .zone z => s.accessNotice t z
            | .point _ => []) ++ s.overCapNotice t)
      ∧ t.MarkedDirty .point d 0 ∧ t.MarkedDirty .point d 1 ∧ t.SignQueued d
      ∧ ((s.pointConfig d).policy = .weighted → t.MarkedDirty .point d 4) ∧ (¬ free → t.MarkedDirty .point d 2)
      ∧ s.SameGround t ∧ s.SameBays t ∧ t.bayLink = s.bayLink ∧ s.SameAir t ∧ s.SameHostSide t ∧ s.SamePath t

/-- PROMISE_LAPSE, which names the promise by its place in the pool (assumption 24, the model's choice), once part time has
reached its expiry (assumption 3): the promise leaves the pool; a zone counts it and re-derives its access. -/
def Obligations.PromiseLapses : Prop :=
  ∀ (place : Nat) (p : Promise) (s : State), s.Rested → s.Configured → s.Derived → s.inService = true →
    s.pool[place]? = some p → s.reached p.expiry = true →
    (∀ z, p.target = .zone z → z < s.zoneCount →
      ∃ t, exec (.promiseLapse place) s = .next t
        ∧ t.pool = s.pool.eraseIdx place
        ∧ t.zone z = { s.zone z with lapsed := (s.zone z).lapsed + 1, access := t.deriveAccess z }
        ∧ (∀ z', z' ≠ z → t.zone z' = s.zone z')
        ∧ t.notices = s.notices.posting (if t.deriveAccess z = (s.zone z).access then []
            else [⟨.zoneAccess, 1, some z, BitVec.ofNat 32 (t.deriveAccess z).code, s.partTime⟩])
        ∧ t.MarkedDirty .zone z 10 ∧ t.MarkedDirty .zone z 12 ∧ t.MarkedDirty .general 0 16
        ∧ (∀ d, s.SamePoint t d)
        ∧ t = { s with pool := t.pool, zones := t.zones, points := t.points, lampLink := t.lampLink,
                       notices := t.notices, path := t.path }
        ∧ s.SamePath t)
    ∧ (∀ d, p.target = .point d →
      ∃ t, exec (.promiseLapse place) s = .next t
        ∧ t.pool = s.pool.eraseIdx place ∧ t.MarkedDirty .point d 3 ∧ t.MarkedDirty .general 0 16
        ∧ (∀ d, s.SamePoint t d)
        ∧ t = { s with pool := t.pool, points := t.points, lampLink := t.lampLink, path := t.path }
        ∧ s.SamePath t)

/-- SHOW_TIMER_EXPIRY: the DP returns to IDLE with the current summary number, and its sign's turn is to come.
SIGN_RETRY_TIMER_EXPIRY and STRING_RETRY_TIMER_EXPIRY: the timer becomes absent and the device's turn is to come. -/
def Obligations.PointAndLampTimersExpire : Prop :=
  ∀ s : State, s.Rested → s.inService = true →
    (∀ d, d < s.pointCount → (s.point d).showTimer.isSome = true →
      ((s.point d).state = .showing ∨ (s.point d).state = .fullShown) →
      ∃ t, exec (.showTimerExpiry d) s = .next t
        ∧ t = { s with
            points := s.points.modify d fun p => { p with
              state := .idle, face := .summary (s.summaryNumber d), showTimer := none }
            lampLink := t.lampLink, path := t.path }
        ∧ t.MarkedDirty .point d 0 ∧ t.SignQueued d ∧ s.SamePath t)
    ∧ (∀ d, d < s.pointCount → (s.point d).retryTimer.isSome = true →
      ∃ t, exec (.signRetryTimerExpiry d) s = .next t ∧ t.SignQueued d
        ∧ t = { s with points := s.points.modify d (fun p => { p with retryTimer := none }), lampLink := t.lampLink })
    ∧ (∀ k, k < s.stringCount → (s.lampString k).retryTimer.isSome = true →
      ∃ t, exec (.stringRetryTimerExpiry k) s = .next t ∧ t.StringQueued k
        ∧ t = { s with strings := s.strings.modify k (fun r => { r with retryTimer := none }), lampLink := t.lampLink })

/-! ## Answer windows -/

/-- POLL_SENT, DRIVE_FRAME_SENT and LAMP_FRAME_SENT: the frame has been sent and its answer window opens. -/
def Obligations.SentFrameOpensItsWindow : Prop :=
  ∀ s : State, s.Rested → s.inService = true →
    (∀ n, s.airLink = some ⟨n, false⟩ → exec .pollSent s = .next { s with airLink := some ⟨n, true⟩ })
    ∧ (∀ l g stage, (s.line l).activity = .sending g stage →
        exec (.driveFrameSent l) s = .next { s with lines := s.lines.set l { s.line l with activity := .window g } })
    ∧ (s.lampLink.frame.isSome = true → s.lampLink.windowOpen = false →
        exec .lampFrameSent s = .next { s with lampLink := { s.lampLink with windowOpen := true } })

/-! ## Air Unit -/

/-- POLL_REPLY without the fault flag: the readings, clipped to full scale, make the sensor FRESH; the zone's gas values are
the largest readings of its FRESH sensors, its gases are judged by them, and its fume stage follows; and the next sensor's
poll is sent. -/
def Obligations.ValidReplyIsTaken : Prop :=
  ∀ (n address : Nat) (co no2 : BitVec 16) (s : State), s.Rested → s.Configured → s.Derived → s.inService = true →
    s.airLink = some ⟨n, true⟩ → n < s.sensorCount → address = (s.sensorConfig n).airAddress →
    let z := (s.sensorConfig n).zone
    ∃ t, exec (.pollReply address co no2 false) s = .next t
      ∧ t.sensors = s.sensors.set n ⟨.fresh, 0, some (min 1000 co.toNat), some (min 250 no2.toNat), some s.partTime, false⟩
      ∧ t.airLink = some ⟨if n + 1 < s.sensorCount then n + 1 else 0, false⟩
      ∧ t.LargestReading z .co (t.zoneGas z).coValue ∧ t.LargestReading z .no2 (t.zoneGas z).no2Value
      ∧ s.GasJudged t z .co (s.zoneConfig z).coMarks ∧ s.GasJudged t z .no2 (s.zoneConfig z).no2Marks
      ∧ (t.zoneGas z).blind = false
      ∧ s.FumeHandled t z (if (s.sensor n).health = .fresh then [] else [⟨.sensorBack, 0, some n, 0, s.partTime⟩])
      ∧ t.MarkedDirty .sensor n 2 ∧ t.plant = s.plant ∧ t.runner = s.runner

/-- POLL_REPLY with the fault flag and POLL_MISS: the sensor's misses and health follow R81 and the next poll is sent. Where
a FRESH sensor is lost, the zone's gas values are taken afresh from those it has left and its gases are judged by them; with
none left the zone becomes blind, at its blind stage or above; and its fume stage follows. -/
def Obligations.LostSensorMayBlindTheZone : Prop :=
  ∀ (n : Nat) (event : Instr) (r : Sensor) (s : State), s.Rested → s.Configured → s.Derived → s.inService = true →
    s.airLink = some ⟨n, true⟩ → n < s.sensorCount →
    ((∃ co no2, event = .pollReply (s.sensorConfig n).airAddress co no2 true)
        ∧ r = { s.sensor n with health := .fault, misses := 0 }
      ∨ event = .pollMiss
        ∧ r = { s.sensor n with
            misses := min 3 ((s.sensor n).misses + 1)
            health := if 2 ≤ (s.sensor n).misses then .stale else (s.sensor n).health }) →
    let z := (s.sensorConfig n).zone
    let posted : List Notice :=
      if r.health = (s.sensor n).health then []
      else if r.health = .fault then [⟨.sensorFault, 2, some n, 0, s.partTime⟩]
      else [⟨.sensorStale, 2, some n, 0, s.partTime⟩]
    ∃ t, exec event s = .next t
      ∧ t.sensors = s.sensors.set n r
      ∧ t.airLink = some ⟨if n + 1 < s.sensorCount then n + 1 else 0, false⟩
      ∧ (r ≠ s.sensor n → t.MarkedDirty .sensor n 0)
      ∧ t.plant = s.plant ∧ t.runner = s.runner
      ∧ ((s.sensor n).health ≠ .fresh ∨ r.health = .fresh →
          t.notices = s.notices.posting posted
          ∧ t = { s with sensors := t.sensors, airLink := t.airLink, notices := t.notices, path := t.path }
          ∧ s.SamePath t)
      ∧ ((s.sensor n).health = .fresh → r.health ≠ .fresh → t.freshSensors z ≠ [] →
          t.LargestReading z .co (t.zoneGas z).coValue ∧ t.LargestReading z .no2 (t.zoneGas z).no2Value
          ∧ s.GasJudged t z .co (s.zoneConfig z).coMarks ∧ s.GasJudged t z .no2 (s.zoneConfig z).no2Marks
          ∧ (t.zoneGas z).blind = false ∧ s.FumeHandled t z posted)
      ∧ ((s.sensor n).health = .fresh → r.health ≠ .fresh → t.freshSensors z = [] → (s.zoneGas z).blind = false →
          t.zoneGas z = ⟨none, none, max (s.zoneGas z).coStage (s.zoneConfig z).blindStage,
            max (s.zoneGas z).no2Stage (s.zoneConfig z).blindStage, none, none, true⟩
          ∧ s.FumeHandled t z posted)

/-- FALL_HOLD_EXPIRY: the gas stage falls by one, its timer starts again where the value is still below the fall mark of the
new stage, and the zone's fume stage follows. -/
def Obligations.FallHoldLowersTheStage : Prop :=
  ∀ (z : Nat) (gas : Gas) (s : State), s.Rested → s.Configured → s.Derived → s.inService = true → z < s.zoneCount →
    ((s.zoneGas z).timer gas).isSome = true →
    let stage := (s.zoneGas z).stage gas - 1
    ∃ t, exec (.fallHoldExpiry z gas) s = .next t
      ∧ t.zoneGas z = (s.zoneGas z).setStage gas stage
          (if 0 < stage ∧ ∃ v, (s.zoneGas z).value gas = some v ∧ v < ((s.zoneConfig z).marks gas).fall stage then
            some ⟨s.partTime, .seconds (s.zoneConfig z).fallHold⟩
          else none)
      ∧ s.FumeHandled t z []
      ∧ t.MarkedDirty .zone z 3
      ∧ t.sensors = s.sensors ∧ t.airLink = s.airLink ∧ t.plant = s.plant ∧ t.runner = s.runner

/-- R63: any event in SERVICE by which a zone becomes FUME_CLOSED recalls every promise to it: they leave the pool and are
counted, PROMISES_RECALLED is posted right after the change of access where there was one, and every DP that showed an arrow
to the zone is IDLE with the current summary number, its show timer cancelled. -/
def Obligations.FumeClosureRecalls : Prop :=
  ∀ (event : Instr) (z : Nat) (s t : State), s.Rested → s.Configured → s.Derived → s.inService = true →
    z < s.zoneCount → exec event s = .next t → s.ClosesForFume t z →
    s.Recalled t z
      ∧ ∃ earlier later, t.notices = s.notices.posting
          (earlier ++ [⟨.zoneAccess, 1, some z, 3, s.partTime⟩] ++ s.recallNotice z ++ later)

/-! ## Drive Unit -/

/-- DRIVE_ANSWER and DRIVE_WINDOW_EXPIRY while another line of the group has no outcome yet: the outcome is recorded, the
group leaves the head of the line's queue, and the line takes the group at its new head. -/
def Obligations.LineOutcomeIsRecorded : Prop :=
  ∀ (l : DriveLine) (g : Nat) (event : Instr) (o : LineOutcome) (c : Command) (s : State), s.Rested → s.Configured →
    s.inService = true → g < s.groupCount → (s.line l).activity = .window g → (s.group g).command = some c →
    s.EndsIn l g event o →
    (∃ m ∈ (s.groupConfig g).lines, m ≠ l ∧ c.outcomes.get m = none) →
    ∃ t, exec event s = .next t
      ∧ t.groups = s.groups.modify g (fun r => { r with
          answers := r.answers.set l o, command := some { c with outcomes := c.outcomes.set l (some o) } })
      ∧ t.line l = { s.line l with
          queue := (s.line l).queue.tail
          activity := match (s.line l).queue.tail with
            | [] => .idle
            | h :: _ => .sending h (match (t.group h).command with
                | some c => c.stage
                | none => (t.group h).k) }
      ∧ (∀ m, m ≠ l → t.line m = s.line m)
      ∧ t.MarkedDirty .fan g 3
      ∧ t = { s with groups := t.groups, lines := t.lines, path := t.path } ∧ s.SamePath t

/-- R105, R106: the outcome that completes a good command (one POSITIVE of one or two lines, two of three): the group runs
at its stage, a recovery is told, and the group resends or goes on to its next stage. -/
def Obligations.GoodCommandIsTaken : Prop :=
  ∀ (l : DriveLine) (g : Nat) (event : Instr) (o : LineOutcome) (c : Command) (s : State), s.Rested → s.Configured →
    s.inService = true → g < s.groupCount → (s.line l).activity = .window g → (s.group g).command = some c →
    s.EndsIn l g event o →
    let outcomes := c.outcomes.set l (some o)
    let lines := (s.groupConfig g).lines
    (∀ m ∈ lines, (outcomes.get m).isSome = true) →
    (if lines.length = 3 then 2 else 1) ≤ lines.countP (fun m => outcomes.get m == some .positive) →
    let timer := if (s.group g).k = c.stage then (s.group g).stepTimer
      else some ⟨s.partTime, .seconds (s.groupConfig g).stepDown⟩
    let issued := if (s.group g).resend = true then some c.stage
      else if c.stage < (s.group g).t then some (s.group g).t
      else if (s.group g).t < c.stage ∧ timer = none then some (c.stage - 1) else none
    ∃ t, exec event s = .next t
      ∧ t.group g = { s.group g with
          k := c.stage, stepTimer := timer, failureCount := 0, faulted := false, resend := false
          answers := (s.group g).answers.set l o
          state := if issued.isSome = true then .inFlight else .ready
          command := issued.map fun stage => ⟨stage, ⟨none, none, none⟩⟩ }
      ∧ (∀ g', g' ≠ g → t.group g' = s.group g')
      ∧ (∀ m, (t.line m).queue = (if m = l then (s.line m).queue.tail else (s.line m).queue)
          ++ if issued.isSome = true ∧ m ∈ lines then [g] else [])
      ∧ t.notices = s.notices.posting (if (s.group g).faulted = true then [⟨.driveRecovered, 1, some g, 0, s.partTime⟩] else [])
      ∧ t.MarkedDirty .fan g 1 ∧ t.MarkedDirty .fan g 3 ∧ ((s.group g).failureCount ≠ 0 → t.MarkedDirty .fan g 4)
      ∧ t = { s with groups := t.groups, lines := t.lines, notices := t.notices, path := t.path } ∧ s.SamePath t

/-- R105, R107: the outcome that completes a bad command: the failure is counted, and the group resends, waits 10 seconds to
retry, or, at three failures in a row or while it is faulted, waits 60. -/
def Obligations.BadCommandIsRetried : Prop :=
  ∀ (l : DriveLine) (g : Nat) (event : Instr) (o : LineOutcome) (c : Command) (s : State), s.Rested → s.Configured →
    s.inService = true → g < s.groupCount → (s.line l).activity = .window g → (s.group g).command = some c →
    s.EndsIn l g event o →
    let outcomes := c.outcomes.set l (some o)
    let lines := (s.groupConfig g).lines
    (∀ m ∈ lines, (outcomes.get m).isSome = true) →
    lines.countP (fun m => outcomes.get m == some .positive) < (if lines.length = 3 then 2 else 1) →
    let failures := min 255 ((s.group g).failureCount + 1)
    let resent := (s.group g).resend
    let told := !resent && !(s.group g).faulted && decide (3 ≤ failures)
    let counted := { s.group g with
      failedCommands := (s.group g).failedCommands + 1, failureCount := failures
      answers := (s.group g).answers.set l o }
    ∃ t, exec event s = .next t
      ∧ t.group g = (if resent = true then { counted with
            resend := false, state := .inFlight, command := some ⟨(s.group g).k, ⟨none, none, none⟩⟩ }
          else if (s.group g).faulted = true ∨ 3 ≤ failures then { counted with
            command := none, faulted := true, state := .fault, retryTimer := some ⟨s.partTime, .seconds 60⟩ }
          else { counted with
            command := none, state := .retryWait, retryTimer := some ⟨s.partTime, .seconds 10⟩ })
      ∧ (∀ g', g' ≠ g → t.group g' = s.group g')
      ∧ (∀ m, (t.line m).queue = (if m = l then (s.line m).queue.tail else (s.line m).queue)
          ++ if resent = true ∧ m ∈ lines then [g] else [])
      ∧ t.notices = s.notices.posting (if told = true then
          [⟨.driveFault, 3, some g, answersWord ⟨outcomes.a.getD .none, outcomes.b.getD .none, outcomes.c.getD .none⟩, s.partTime⟩]
          else [])
      ∧ t.MarkedDirty .fan g 1 ∧ t.MarkedDirty .fan g 3 ∧ t.MarkedDirty .fan g 4
      ∧ t = { s with groups := t.groups, lines := t.lines, notices := t.notices, path := t.path } ∧ s.SamePath t

/-- STEP_DOWN_TIMER_EXPIRY lets a READY group go on to its next stage; RETRY_TIMER_EXPIRY always issues a command, for the
next stage or else for the stage the group runs at. -/
def Obligations.DriveTimersIssueCommands : Prop :=
  ∀ (g : Nat) (s : State), s.Rested → s.Configured → s.inService = true → g < s.groupCount →
    let r := s.group g
    (r.stepTimer.isSome = true →
      let issued := if r.state ≠ .ready then none else if r.k < r.t then some r.t
        else if r.t < r.k then some (r.k - 1) else none
      ∃ t, exec (.stepDownTimerExpiry g) s = .next t
        ∧ t.group g = (match issued with
          | some stage => { r with stepTimer := none, state := .inFlight, command := some ⟨stage, ⟨none, none, none⟩⟩ }
          | none => { r with stepTimer := none })
        ∧ (issued.isSome = true → s.QueuesWith t g ∧ t.MarkedDirty .fan g 1) ∧ (issued = none → t.lines = s.lines)
        ∧ (∀ g', g' ≠ g → t.group g' = s.group g')
        ∧ t = { s with groups := t.groups, lines := t.lines, path := t.path } ∧ s.SamePath t)
    ∧ (r.waits = true →
      let issued := if r.k < r.t then r.t else if r.t < r.k ∧ r.stepTimer = none then r.k - 1 else r.k
      ∃ t, exec (.retryTimerExpiry g) s = .next t
        ∧ t.group g = { r with retryTimer := none, state := .inFlight, command := some ⟨issued, ⟨none, none, none⟩⟩ }
        ∧ s.QueuesWith t g ∧ t.MarkedDirty .fan g 1
        ∧ (∀ g', g' ≠ g → t.group g' = s.group g')
        ∧ t = { s with groups := t.groups, lines := t.lines, path := t.path } ∧ s.SamePath t)

/-- FAN_GRANT_TAKEN and STRING_GRANT_TAKEN: a claimant takes the latest grant that the Budget holds for it (assumption 22,
the model's choice): a group targets the larger of P and its granted stage and goes on to it where it is READY; a string
recomposes its targets. -/
def Obligations.GrantsAreTaken : Prop :=
  ∀ s : State, s.Rested → s.Configured → s.inService = true →
    (∀ g, g < s.groupCount → (s.groupClaim g).g ≠ (s.group g).g →
      let r := s.group g
      let target := max r.p (s.groupClaim g).g
      let issued := if target = r.t ∨ r.state ≠ .ready then none else if r.k < target then some target
        else if target < r.k ∧ r.stepTimer = none then some (r.k - 1) else none
      ∃ t, exec (.fanGrantTaken g) s = .next t
        ∧ t.group g = (match issued with
          | some stage => { r with
              g := (s.groupClaim g).g, t := target, state := .inFlight, command := some ⟨stage, ⟨none, none, none⟩⟩ }
          | none => { r with g := (s.groupClaim g).g, t := target })
        ∧ (issued.isSome = true → s.QueuesWith t g) ∧ (issued = none → t.lines = s.lines)
        ∧ t.MarkedDirty .fan g 2 ∧ (target ≠ r.t → t.MarkedDirty .fan g 1)
        ∧ (∀ g', g' ≠ g → t.group g' = s.group g')
        ∧ t = { s with groups := t.groups, lines := t.lines, path := t.path } ∧ s.SamePath t)
    ∧ (∀ k, k < s.stringCount → (s.stringClaim k).grant ≠ (s.lampString k).grant →
      let c := s.stringConfig k
      let r := s.lampString k
      ∃ t, exec (.stringGrantTaken k) s = .next t
        ∧ t.lampString k = { r with
            grant := (s.stringClaim k).grant, luminaires := (t.lampString k).luminaires
            fadeTimer := (t.lampString k).fadeTimer }
        ∧ (∀ p, p < c.count →
            let old := r.luminaires.getD p Luminaire.reset
            (t.lampString k).luminaires.getD p Luminaire.reset = { old with
              target := if r.override = true ∨ (s.stringClaim k).grant = true then old.unbudgeted else c.safety
              output := if r.override = true then old.output else max old.output c.safety })
        ∧ (∀ k', k' ≠ k → t.lampString k' = s.lampString k')
        ∧ t.MarkedDirty .string k 20
        ∧ t = { s with strings := t.strings, lampLink := t.lampLink, path := t.path } ∧ s.SamePath t)

/-! ## Light Unit and the lamp link -/

/-- R125: when an OK outcome leaves the lamp link idle, the link chooses among the signs and strings that are eligible: with
both, a sign while the sign run is below 4, which then increases by 1, and otherwise a string; with one kind, a device of that
kind, the sign run then 0; and within the kind the device whose turn it is. -/
def Obligations.LampLinkChoosesInTurn : Prop :=
  ∀ (address d₀ : Nat) (face : Face) (places : List Nat) (s : State), s.Rested → s.inService = true →
    s.lampLink.frame = some (.sign d₀ address face) → s.lampLink.windowOpen = true → (s.point d₀).health = .ok →
    let link := s.lampLink
    let answered : LampLink → State := fun l =>
      { s with points := s.points.modify d₀ (fun p => { p with misses := 0 }), lampLink := l }
    let signSent : Nat → Nat → LampLink := fun d run => { link with
      frame := some (.sign d (s.pointConfig d).signAddress (s.point d).face), windowOpen := false, signRun := run
      lastSign := d, signPending := link.signPending.set d false }
    let stringSent : Nat → LampLink := fun k => { link with
      frame := some (.string k (s.stringConfig k).lampAddress (stringFrameLevels (s.stringConfig k) (s.lampString k)))
      windowOpen := false, signRun := 0, lastString := k, stringPending := link.stringPending.set k false }
    let noSign := ∀ d, s.signEligible d = false
    let noString := ∀ k, s.stringEligible k = false
    let sign : Nat → Prop := NextInTurn link.lastSign s.pointCount s.signEligible
    let string : Nat → Prop := NextInTurn link.lastString s.stringCount s.stringEligible
    let sends : LampLink → Prop := fun l => exec (.lampReply address places) s = .next (answered l)
    (noSign → noString → sends { link with frame := none, windowOpen := false })
      ∧ (∀ d, sign d → noString → sends (signSent d 0))
      ∧ (∀ k, noSign → string k → sends (stringSent k))
      ∧ (∀ d k, sign d → string k → link.signRun < 4 → sends (signSent d (link.signRun + 1)))
      ∧ (∀ d k, sign d → string k → 4 ≤ link.signRun → sends (stringSent k))

/-- LAMP_REPLY from the device that was sent a frame: a string's failed list is replaced by the positions that the reply
names, each that enters it is told of by a LAMP_FAILED notice, its link is REACHABLE and its claims follow; a sign is well
again. -/
def Obligations.LampReplyIsTaken : Prop :=
  ∀ (address : Nat) (places : List Nat) (s : State), s.Rested → s.Configured → s.inService = true →
    s.lampLink.windowOpen = true →
    (∀ k levels, s.lampLink.frame = some (.string k address levels) → k < s.stringCount →
      let c := s.stringConfig k
      ∃ t, exec (.lampReply address places) s = .next t
        ∧ (∀ p, p ∈ (t.lampString k).failed
            ↔ ∃ j ∈ places, j < c.count ∧ p = if c.reversed = true then c.count - 1 - j else j)
        ∧ (t.lampString k).failed.Pairwise (· < ·)
        ∧ t.lampString k = { s.lampString k with
            failed := (t.lampString k).failed, link := .reachable, misses := 0, grant := (t.lampString k).grant
            luminaires := (t.lampString k).luminaires, fadeTimer := (t.lampString k).fadeTimer }
        ∧ ((t.lampString k).failed ≠ (s.lampString k).failed →
            t.MarkedDirty .string k 16 ∧ t.MarkedDirty .string k 18 ∧ t.MarkedDirty .string k 19
            ∧ (t.stringClaim k).prot = protectedClaim c (t.lampString k)
            ∧ (t.stringClaim k).disc = wholeClaim c (t.lampString k) - protectedClaim c (t.lampString k))
        ∧ t.notices = s.notices.posting
            (((t.lampString k).failed.filter fun p => !(s.lampString k).failed.contains p).map (fun p =>
              ⟨.lampFailed, 1, some k, BitVec.ofNat 32 p, s.partTime⟩) ++ s.overCapNotice t)
        ∧ (∀ k', k' ≠ k → t.lampString k' = s.lampString k')
        ∧ t = { s with strings := t.strings, lampLink := t.lampLink, budget := t.budget, notices := t.notices, path := t.path }
        ∧ s.SameHostSide t ∧ s.SamePath t)
    ∧ (∀ d face, s.lampLink.frame = some (.sign d address face) →
      ∃ t, exec (.lampReply address places) s = .next t
        ∧ t = { s with
            points := s.points.modify d fun p =>
              if p.health = .fault then { p with health := .ok, misses := 0, retryTimer := none } else { p with misses := 0 }
            lampLink := t.lampLink, path := t.path }
        ∧ ((s.point d).health = .fault → t.MarkedDirty .point d 0)
        ∧ s.SamePath t)

/-- LAMP_WINDOW_EXPIRY: a device with fewer than three misses is tried again; at the third the string is UNREACHABLE or the
sign SIGN_FAULT, which is told, and it is tried again every 10 seconds. -/
def Obligations.LampMissIsCounted : Prop :=
  ∀ s : State, s.Rested → s.Configured → s.inService = true → s.lampLink.windowOpen = true →
    (∀ k address levels, s.lampLink.frame = some (.string k address levels) → k < s.stringCount →
      let r := s.lampString k
      let retry : Option Timer := some ⟨s.partTime, .seconds 10⟩
      ∃ t, exec .lampWindowExpiry s = .next t
        ∧ t.lampString k = (if r.link = .unreachable then { r with retryTimer := retry }
            else if r.misses < 2 then { r with misses := r.misses + 1 }
            else { r with misses := 3, link := .unreachable, retryTimer := retry })
        ∧ (∀ k', k' ≠ k → t.lampString k' = s.lampString k')
        ∧ t.notices = s.notices.posting (if r.link = .reachable ∧ 2 ≤ r.misses then
            [⟨.stringUnreachable, 2, some k, 0, s.partTime⟩] else [])
        ∧ (r.link = .reachable → r.misses < 2 → t.StringQueued k)
        ∧ (r.link = .reachable → 2 ≤ r.misses → t.MarkedDirty .string k 16)
        ∧ t = { s with strings := t.strings, lampLink := t.lampLink, notices := t.notices, path := t.path } ∧ s.SamePath t)
    ∧ (∀ d address face, s.lampLink.frame = some (.sign d address face) → d < s.pointCount →
      let r := s.point d
      let retry : Option Timer := some ⟨s.partTime, .seconds 10⟩
      ∃ t, exec .lampWindowExpiry s = .next t
        ∧ t.point d = (if r.health = .fault then { r with retryTimer := retry }
            else if r.misses < 2 then { r with misses := r.misses + 1 }
            else { r with misses := 3, health := .fault, retryTimer := retry })
        ∧ (∀ d', d' ≠ d → t.point d' = s.point d')
        ∧ t.notices = s.notices.posting (if r.health = .ok ∧ 2 ≤ r.misses then
            [⟨.signFault, 2, some d, 0, s.partTime⟩] else [])
        ∧ (r.health = .ok → r.misses < 2 → t.SignQueued d)
        ∧ (r.health = .ok → 2 ≤ r.misses → t.MarkedDirty .point d 0)
        ∧ t = { s with points := t.points, lampLink := t.lampLink, notices := t.notices, path := t.path } ∧ s.SamePath t)

/-- FADE_TIMER_EXPIRY: every output steps one towards its target, the string's turn is to come where one stepped, and the
timer runs again while one differs. BOOST_EXPIRY, once part time has reached the boost's expiry (assumption 3, the model's
reading): the luminaire's boost ends, and the string's targets and claims are composed afresh. -/
def Obligations.FadesAndBoosts : Prop :=
  ∀ (k : Nat) (s : State), s.Rested → s.Configured → s.inService = true → k < s.stringCount →
    let c := s.stringConfig k
    let r := s.lampString k
    let now : State → Nat → Luminaire := fun u p => (u.lampString k).luminaires.getD p Luminaire.reset
    (r.fadeTimer.isSome = true →
      ∃ t, exec (.fadeTimerExpiry k) s = .next t
        ∧ (∀ p, p < c.count → now t p = { now s p with
            output := if (now s p).output < (now s p).target then (now s p).output + 1
              else if (now s p).target < (now s p).output then (now s p).output - 1 else (now s p).output })
        ∧ (∀ p, c.count ≤ p → now t p = now s p)
        ∧ t.lampString k = { r with
            luminaires := (t.lampString k).luminaires, fadeTimer := (t.lampString k).fadeTimer }
        ∧ ((∃ p, p < c.count ∧ (now t p).output ≠ (now t p).target) →
            (t.lampString k).fadeTimer = some ⟨s.partTime, .fraction c.fadeRate⟩)
        ∧ ((∀ p, p < c.count → (now t p).output = (now t p).target) → (t.lampString k).fadeTimer = none)
        ∧ ((∃ p, p < c.count ∧ (now s p).output ≠ (now s p).target) → t.StringQueued k)
        ∧ (∀ k', k' ≠ k → t.lampString k' = s.lampString k')
        ∧ t = { s with strings := t.strings, lampLink := t.lampLink })
    ∧ ∀ p expiry, p < c.count → s.boostOf k p = some expiry → s.reached expiry = true →
        ∃ t, exec (.boostExpiry k p) s = .next t
          ∧ (∀ i, i < c.count →
              (now t i).boost = (if i = p then none else (now s i).boost)
              ∧ (now t i).unbudgeted = unbudgetedTarget c r (r.levels.getD i 0) (now t i).boost.isSome
              ∧ (now t i).target = targetLevel c (t.lampString k) (now t i).unbudgeted)
          ∧ s.SameString t k ∧ (∀ k', k' ≠ k → t.lampString k' = s.lampString k')
          ∧ (t.stringClaim k).prot = protectedClaim c (t.lampString k)
          ∧ (t.stringClaim k).disc = wholeClaim c (t.lampString k) - protectedClaim c (t.lampString k)
          ∧ t.notices = s.notices.posting (s.overCapNotice t)
          ∧ t = { s with strings := t.strings, lampLink := t.lampLink, budget := t.budget, notices := t.notices, path := t.path }
          ∧ s.SamePath t

/-! ## Memory Path -/

/-- A host access arrives: a read of a dirty cell is answered fresh without the port; a read of another word, and a write to
a word that the part does not act on, are granted a free port at once; any access that needs a port that is taken waits;
and none arrives while one waits (assumption 6: the model's reading of the host port). -/
def Obligations.HostAccessesAreServed : Prop :=
  ∀ s : State, s.Rested →
    (∀ a en, s.path.hostWaiting = none → a.toNat ∈ s.path.dirty →
      exec (.hostReadCell a en) s = .next { s with
        path := { s.path with hostAnswer := some ⟨a, s.valueAt a.toNat, true⟩ } })
    ∧ (∀ a en, s.path.hostWaiting = none → s.path.port = .free → a.toNat ∉ s.path.dirty →
      exec (.hostReadCell a en) s = .next { s with
        path := { s.path with
          hostAnswer := some ⟨a, s.mem.readWord a.toNat, false⟩, hostRun := 0, port := .busy ⟨a.toNat, none, en⟩ } })
    ∧ (∀ a data en, s.path.hostWaiting = none → s.path.port = .free →
      (s.classAt a.toNat = none ∨ s.classAt a.toNat = some .spare) →
      exec (.hostWritePass a data en) s = .next { s with
        mem := s.mem.writeWord a.toNat data en
        path := { s.path with hostRun := 0, port := .busy ⟨a.toNat, some data, en⟩ } })
    ∧ (∀ c h, State.accessOf c = some h → s.path.hostWaiting = none → s.path.port ≠ .free →
      (h.data = none → h.address.toNat ∉ s.path.dirty) →
      (h.data.isSome = true →
        s.classAt h.address.toNat ≠ some .report ∧ s.classAt h.address.toNat ≠ some .log) →
      exec c s = .next { s with path := { s.path with hostWaiting := some h } })
    ∧ (∀ c h, State.accessOf c = some h → s.path.hostWaiting.isSome = true → exec c s = .next s)

/-- R147: a host write to a REPORT or a LOG cell is taken at arrival and suppressed whole, whatever its byte enables:
memory is not written, the port is not claimed and nothing waits; GUARD COUNT rises, its cell is marked dirty and a GUARDED
notice is posted. -/
def Obligations.GuardedWriteIsSuppressed : Prop :=
  ∀ (event : Instr) (a : Address) (data : Word) (en : ByteEnables) (s : State), s.Rested →
    State.accessOf event = some ⟨a, some data, en, false⟩ → s.path.hostWaiting = none →
    (s.classAt a.toNat = some .report ∨ s.classAt a.toNat = some .log) →
    ∃ t, exec event s = .next t
      ∧ t.notices = { s.notices with guarded := s.notices.guarded + 1 }.posting
          [⟨.guarded, 1, none, a.zeroExtend 32, s.partTime⟩]
      ∧ t.MarkedDirty .general 0 9
      ∧ t = { s with notices := t.notices, path := t.path }
      ∧ s.SamePath t ∧ ∀ x, t.path.port = .busy x → s.path.port = .busy x

/-- MODE_WRITE of a legal mode: the zone takes it, as activity or, in clean air, as sleep; a change of its rest is told to the
groups that serve it, which compose P afresh, and to its strings; its access is re-derived, and a change of it is told; and a
change into or out of DORMANT puts every indicator of the zone on its turn. -/
def Obligations.ModeIsCaptured : Prop :=
  ∀ (a : Address) (data : Word) (en : ByteEnables) (c : CellRef) (mode : ZoneMode) (s : State), s.Settled →
    s.Configured → s.Derived → s.inService = true → s.DemandReady a .mode c →
    (s.merged c data en).toNat = mode.code →
    let old := s.zone c.object
    let started : Option Timer := some ⟨s.partTime, .seconds (s.zoneConfig c.object).quietTime⟩
    let turns : State → Prop := fun t => (t.zone c.object).rest ≠ old.rest
    ∃ t, exec (.modeWrite a data en) s = .next t
      ∧ t.zone c.object = { old with
          mode := mode
          access := t.deriveAccess c.object
          rest := if mode = .dormant then (if old.fume = 0 then .asleep else old.rest) else .active
          wake := if mode ≠ .dormant ∧ old.rest ≠ .active then .mode else old.wake
          quiet := if mode = .dormant then (if old.fume = 0 ∧ old.rest ≠ .asleep then none else old.quiet)
            else if old.fume = 0 then started else old.quiet }
      ∧ (∀ z, z ≠ c.object → t.zone z = s.zone z)
      ∧ (old.mode ≠ mode → (old.mode = .dormant ∨ mode = .dormant) → ∀ b, b < s.bayCount →
          (s.bayConfig b).zone = c.object → (t.bay b).indicator = t.deriveIndicator b
            ∧ (t.indicatorPending b = true
                ∨ t.bayLink.frame = some (.indicator b (s.bayConfig b).indicatorAddress (t.bay b).indicator)))
      ∧ (∀ b, t.bay b = { s.bay b with indicator := (t.bay b).indicator })
      ∧ (∀ g, s.SameGroup t g ∧ (t.group g).q = (s.group g).q
          ∧ (g < s.groupCount → c.object ∈ (s.groupConfig g).served → turns t → (t.group g).p = t.composeP g)
          ∧ (¬ (c.object ∈ (s.groupConfig g).served ∧ turns t) → t.group g = s.group g))
      ∧ (∀ k, (k < s.stringCount → (s.stringConfig k).zone = c.object → turns t → t.lampString k = { s.lampString k with
            rest := (t.zone c.object).rest, grant := (t.lampString k).grant, luminaires := (t.lampString k).luminaires
            fadeTimer := (t.lampString k).fadeTimer })
          ∧ (¬ (k < s.stringCount ∧ (s.stringConfig k).zone = c.object ∧ turns t) → t.lampString k = s.lampString k))
      ∧ t.notices = s.notices.posting (s.accessNotice t c.object ++ s.overCapNotice t)
      ∧ t.pool = s.pool ∧ t.holds = s.holds ∧ (∀ d, s.SamePoint t d)
      ∧ s.Captured t a (s.merged c data en) ∧ s.SameAir t ∧ t.allFull = s.allFull

/-- EXTRA_AIR_WRITE and FLOOR_WRITE: the value, at most 6, is taken, and the requested stage of each group concerned is
composed afresh. -/
def Obligations.AirDemandsAreCaptured : Prop :=
  ∀ (a : Address) (data : Word) (en : ByteEnables) (c : CellRef) (s : State), s.Settled → s.Configured →
    s.inService = true →
    let v := min 6 (s.merged c data en).toNat
    (s.DemandReady a .extraAir c →
      ∃ t, exec (.extraAirWrite a data en) s = .next t
        ∧ t.zones = s.zones.modify c.object (fun r => { r with extraAir := v })
        ∧ (∀ g, g < s.groupCount → c.object ∈ (s.groupConfig g).served → (t.group g).q = t.composeQ g)
        ∧ (∀ g, g < s.groupCount → c.object ∉ (s.groupConfig g).served → t.group g = s.group g)
        ∧ (∀ g, s.SameGroup t g ∧ (t.group g).p = (s.group g).p)
        ∧ t.pool = s.pool ∧ s.SameBays t ∧ t.bayLink = s.bayLink ∧ t.points = s.points ∧ t.strings = s.strings
        ∧ s.Captured t a (BitVec.ofNat 32 v) ∧ s.SameAir t ∧ t.allFull = s.allFull)
    ∧ (s.DemandReady a .floor c →
      ∃ t, exec (.floorWrite a data en) s = .next t
        ∧ (t.group c.object).floor = v ∧ (t.group c.object).q = t.composeQ c.object
        ∧ t.group c.object = { s.group c.object with
            floor := v, q := (t.group c.object).q, g := (t.group c.object).g, t := (t.group c.object).t
            state := (t.group c.object).state, command := (t.group c.object).command }
        ∧ (∀ g, g ≠ c.object → t.group g = s.group g)
        ∧ t.zones = s.zones ∧ t.pool = s.pool ∧ s.SameBays t ∧ t.bayLink = s.bayLink ∧ t.points = s.points
        ∧ t.strings = s.strings
        ∧ s.Captured t a (BitVec.ofNat 32 v) ∧ s.SameAir t ∧ t.allFull = s.allFull)

/-- LEVELS_WRITE: each byte, at most 63, is the level of its position, and every copy rule of the string copies the levels
of the enabled bytes in its range, below the string's count, to its destination; where rules overlap the highest-indexed one
stands. -/
def Obligations.LevelsAreCaptured : Prop :=
  ∀ (a : Address) (data : Word) (en : ByteEnables) (c : CellRef) (s : State), s.Settled → s.Configured →
    s.inService = true → s.DemandReady a .levels c →
    let word := saturateLevels (s.merged c data en)
    let level : Nat → Nat := fun i => min 63 (byteOf (s.merged c data en) i).toNat
    let copied : Nat → Nat → Nat → Nat → Prop := fun j k p i => i < 4 ∧ en.getLsbD i = true
      ∧ 4 * c.position + i < (s.stringConfig c.object).count
      ∧ ∃ r, s.plant.copies[j]? = some r ∧ r.source = c.object ∧ r.dest = k ∧ r.first ≤ 4 * c.position + i
          ∧ 4 * c.position + i ≤ r.last ∧ p = r.start + (4 * c.position + i - r.first)
    ∃ t, exec (.levelsWrite a data en) s = .next t
      ∧ (∀ i, i < 4 → (t.lampString c.object).levels.getD (4 * c.position + i) 0 = level i)
      ∧ (∀ p, p / 4 ≠ c.position →
          (t.lampString c.object).levels.getD p 0 = (s.lampString c.object).levels.getD p 0)
      ∧ (∀ j k p i, k ≠ c.object → copied j k p i → (∀ j' i', copied j' k p i' → j' ≤ j) →
          (t.lampString k).levels.getD p 0 = level i ∧ t.MarkedDirty .string k (p / 4))
      ∧ (∀ k p, k ≠ c.object → (∀ j i, ¬ copied j k p i) →
          (t.lampString k).levels.getD p 0 = (s.lampString k).levels.getD p 0)
      ∧ (∀ k, t.lampString k = { s.lampString k with
          levels := (t.lampString k).levels, grant := (t.lampString k).grant, luminaires := (t.lampString k).luminaires
          fadeTimer := (t.lampString k).fadeTimer })
      ∧ t.zones = s.zones ∧ t.pool = s.pool ∧ s.SameBays t ∧ t.bayLink = s.bayLink ∧ t.points = s.points
      ∧ t.groups = s.groups ∧ s.Captured t a word ∧ s.SameAir t ∧ t.allFull = s.allFull

/-- ALL_FULL_WRITE: every string is under override while the demand is on, or its zone calls for evacuation; a string that
comes under override has every output at 63 at once. -/
def Obligations.AllFullIsCaptured : Prop :=
  ∀ (a : Address) (data : Word) (en : ByteEnables) (c : CellRef) (s : State), s.Settled → s.Configured →
    s.Derived → s.inService = true → s.DemandReady a .allFull c →
    let v := if s.merged c data en = 0 then 0 else 1
    ∃ t, exec (.allFullWrite a data en) s = .next t
      ∧ t.allFull = v
      ∧ (∀ k, k < s.stringCount → (t.lampString k).override = ((s.lampString k).evacuation || v != 0))
      ∧ (∀ k, k < s.stringCount → (s.lampString k).override = false → (t.lampString k).override = true →
          ∀ p, p < (s.stringConfig k).count → ((t.lampString k).luminaires.getD p Luminaire.reset).output = 63)
      ∧ (∀ k, t.lampString k = { s.lampString k with
          override := (t.lampString k).override, grant := (t.lampString k).grant
          luminaires := (t.lampString k).luminaires, fadeTimer := (t.lampString k).fadeTimer })
      ∧ t.zones = s.zones ∧ t.pool = s.pool ∧ s.SameBays t ∧ t.bayLink = s.bayLink ∧ t.points = s.points
      ∧ t.groups = s.groups ∧ s.Captured t a (BitVec.ofNat 32 v) ∧ s.SameAir t

/-- NOTICE_READ_INDEX_WRITE of an index from the read index forward to the write index, and ATTENTION_THRESHOLD_WRITE:
the value is taken and ATTN is evaluated afresh over the unread slots. -/
def Obligations.NoticeDemandsAreCaptured : Prop :=
  ∀ (a : Address) (data : Word) (en : ByteEnables) (c : CellRef) (s : State), s.Settled → s.inService = true →
    let w := s.merged c data en
    let attn : Notices → Bool := fun n => (List.range (n.writeIndex - n.readIndex).toNat).any fun i =>
      match n.severities.getD ((n.readIndex.toNat + i) % 64) none with
      | some severity => decide (n.threshold ≤ severity)
      | none => false
    (s.DemandReady a .readIndex c →
      (w.truncate 16 - s.notices.readIndex).toNat ≤ (s.notices.writeIndex - s.notices.readIndex).toNat →
      ∃ t, exec (.noticeReadIndexWrite a data en) s = .next t
        ∧ (w.truncate 16 = s.notices.readIndex → t.notices = s.notices)
        ∧ (w.truncate 16 ≠ s.notices.readIndex →
            t.notices = { s.notices with
              readIndex := w.truncate 16, attn := attn { s.notices with readIndex := w.truncate 16 } }.posting [])
        ∧ s.Captured t a ((w.truncate 16 : BitVec 16).zeroExtend 32)
        ∧ t = { s with mem := t.mem, notices := t.notices, path := t.path })
    ∧ (s.DemandReady a .threshold c →
      let n := { s.notices with threshold := min 3 w.toNat }
      ∃ t, exec (.attentionThresholdWrite a data en) s = .next t
        ∧ t.notices = { n with attn := attn n }
        ∧ s.Captured t a (BitVec.ofNat 32 (min 3 w.toNat)) ∧ a.toNat ∉ t.path.dirty
        ∧ t = { s with mem := t.mem, notices := t.notices, path := t.path })

/-- A write of a mode above 2 or of a read index out of its range is rejected at its grant: memory and the demand keep their
values, REJECT COUNT rises and a REJECTED notice is posted. -/
def Obligations.BadDemandIsRejected : Prop :=
  ∀ (a : Address) (data : Word) (en : ByteEnables) (c : CellRef) (event : Instr) (s : State), s.Settled →
    s.inService = true →
    (event = .modeWrite a data en ∧ s.DemandReady a .mode c ∧ 2 < (s.merged c data en).toNat
      ∨ event = .noticeReadIndexWrite a data en ∧ s.DemandReady a .readIndex c
        ∧ (s.notices.writeIndex - s.notices.readIndex).toNat
            < ((s.merged c data en).truncate 16 - s.notices.readIndex).toNat) →
    ∃ t, exec event s = .next t
      ∧ t.notices = { s.notices with rejected := s.notices.rejected + 1 }.posting
          [⟨.rejected, 1, none, a.zeroExtend 32, s.partTime⟩]
      ∧ t.MarkedDirty .general 0 10
      ∧ t = { s with notices := t.notices, path := t.path }
      ∧ s.SamePath t ∧ ∀ x, t.path.port ≠ .busy x

/-- COMMAND_START: an IDLE runner starts on a list whose span is ordinary memory, and refuses one whose span is not; a
RUNNING one, which a write reaches only at the end of an access on the port, refuses every start. COMMAND_ABORT: a RUNNING
runner takes note, an IDLE one ignores it. The write reaches memory as it stands. -/
def Obligations.TriggersReachTheRunner : Prop :=
  ∀ (a : Address) (data : Word) (en : ByteEnables) (s : State), s.Settled → s.Configured → s.inService = true →
    let w := mergeBytes 0 data en
    let span : Nat → Prop := fun x => w.toNat ≤ x ∧ x ≤ w.toNat + 3137
    let blocked := ∃ x, span x ∧ (s.plant.memorySize ≤ x ∨ ∃ v ∈ s.plant.windows, v.base ≤ x ∧ x < v.base + 256 * v.blocks)
    let written : State → Prop := fun t => t.mem = s.mem.writeWord a.toNat data en
      ∧ t.path.port = .busy ⟨a.toNat, some data, en⟩ ∧ t.path.hostWaiting = none ∧ t.path.hostRun = s.runAfter
      ∧ t.path.hostAnswer = s.path.hostAnswer ∧ (∀ x ∈ s.path.dirty, x ∈ t.path.dirty)
      ∧ t = { s with mem := t.mem, runner := t.runner, notices := t.notices, path := t.path }
    (s.runner.phase = .idle → s.HostReady → s.classAt a.toNat = some .start →
      ∃ t, exec (.commandStart a data en) s = .next t ∧ written t ∧ t.MarkedDirty .general 0 4
        ∧ (¬ blocked →
            t.runner = { s.runner with
              phase := .fetching [], entryIndex := 0, entryAddress := w.toNat, entriesDone := 0, result := .none
              abort := false }
            ∧ t.notices = s.notices)
        ∧ (blocked →
            t.runner = { s.runner with entriesDone := 0, result := .refusedPlace }
            ∧ t.notices = s.notices.posting [⟨.listDone, 0, none, 5, s.partTime⟩]))
    ∧ (s.runner.phase = .idle → s.HostReady → s.classAt a.toNat = some .abort →
      ∃ t, exec (.commandAbort a data en) s = .next t ∧ written t ∧ t.notices = s.notices ∧ t.runner = s.runner)
    ∧ (s.path.port.isBusy = true → s.path.hostWaiting = some ⟨a, some data, en, false⟩ → s.runner.phase ≠ .idle →
      s.path.drain = false → s.path.hostRun < 16 →
      (s.classAt a.toNat = some .start →
        ∃ t, exec .memoryAccessDone s = .next t ∧ written t ∧ t.MarkedDirty .general 0 11
          ∧ t.runner = { s.runner with refusals := s.runner.refusals + 1 }
          ∧ t.notices = s.notices.posting [⟨.triggerRefused, 1, none, w, s.partTime⟩])
      ∧ (s.classAt a.toNat = some .abort →
        ∃ t, exec .memoryAccessDone s = .next t ∧ written t ∧ t.notices = s.notices
          ∧ t.runner = { s.runner with abort := true }))

/-- MEMORY_ACCESS_DONE: the port is granted to the host if it waits, unless a claim of the part waits and the queue is being
drained or the host has had 16 grants running; and otherwise to the first claim of the part. A host access is taken within its
grant: a read whose cell has become dirty is answered fresh without the port, which a claim of the part then takes; another
read, and a write that the part does not act on, goes to memory; and a write to a demand cell or a trigger is taken as it would
be at a free port with the same claim waiting, where its own statement holds. A plain access, which waited at an assertion of
RESET, passes to memory whatever cell its address has (R169); and a part claim's access is made by its own event (assumption 6,
the model's reading). -/
def Obligations.PortIsGranted : Prop :=
  ∀ s : State, s.Rested → s.path.port.isBusy = true →
    let free : State := { s with path := { s.path with port := .free, hostWaiting := none } }
    let toPart : Port := match s.partClaim with
      | some c => .granted c
      | none => .free
    (s.path.hostWaiting = none →
      exec .memoryAccessDone s = .next { s with
        path := { s.path with port := toPart, hostRun := if s.partClaim = none then s.path.hostRun else 0 } })
    ∧ (∀ h c, s.path.hostWaiting = some h → s.partClaim = some c → (s.path.drain = true ∨ 16 ≤ s.path.hostRun) →
      exec .memoryAccessDone s = .next { s with path := { s.path with port := .granted c, hostRun := 0 } })
    ∧ (∀ a en plain, s.path.hostWaiting = some ⟨a, none, en, plain⟩ → (plain = true ∨ a.toNat ∉ s.path.dirty) → s.HostFirst →
      exec .memoryAccessDone s = .next { s with
        path := { s.path with
          hostWaiting := none, hostAnswer := some ⟨a, s.mem.readWord a.toNat, false⟩
          hostRun := s.runAfter, port := .busy ⟨a.toNat, none, en⟩ } })
    ∧ (∀ a en, s.path.hostWaiting = some ⟨a, none, en, false⟩ → a.toNat ∈ s.path.dirty → s.HostFirst →
      exec .memoryAccessDone s = .next { s with
        path := { s.path with
          hostWaiting := none, hostAnswer := some ⟨a, s.valueAt a.toNat, true⟩, hostRun := 0, port := toPart } })
    ∧ (∀ a data en plain, s.path.hostWaiting = some ⟨a, some data, en, plain⟩ →
      (plain = true ∨ s.classAt a.toNat = none ∨ s.classAt a.toNat = some .spare) → s.HostFirst →
      exec .memoryAccessDone s = .next { s with
        mem := s.mem.writeWord a.toNat data en
        path := { s.path with hostWaiting := none, hostRun := s.runAfter, port := .busy ⟨a.toNat, some data, en⟩ } })
    ∧ (∀ event h, State.accessOf event = some h → s.path.hostWaiting = some h → h.data.isSome = true →
      s.classAt h.address.toNat ≠ some .report → s.classAt h.address.toNat ≠ some .log → s.HostFirst →
      free.Settled ∧ free.HostReady ∧ free.runAfter = s.runAfter ∧ exec .memoryAccessDone s = exec event free)

/-- INJECTION: the part's value of the head entry's cell goes to memory as it is presented (assumption 7, the model's
choice), the cell is clean and its entry gone, with every clean entry that comes to the head behind it. Where the count falls
to 32 the drain flag clears and the sweep fills the queue again from the sweep position on, up to 96 entries; a sweep that
fills it moves the position to the cell after the last it took, and one that comes round leaves it. -/
def Obligations.InjectionWritesTheValue : Prop :=
  ∀ (a : Nat) (rest : List Nat) (s : State), s.Rested → s.path.port = .granted .injection → s.path.queue = a :: rest →
    let dirty := s.path.dirty.filter (· != a)
    let unclean : List Nat → List Nat := fun q => q.dropWhile fun b => !dirty.contains b
    let low := rest.drop (rest.length - 32)
    let waiting := dirty.filter fun b => !low.contains b
    let swept := (waiting.filter fun b => s.path.sweep.getD 0 ≤ b) ++ waiting.filter fun b => b < s.path.sweep.getD 0
    ∃ t, exec .injection s = .next t
      ∧ t.mem = s.mem.writeWord a (s.valueAt a) allBytes
      ∧ t.path = { s.path with
          port := .busy ⟨a, some (s.valueAt a), allBytes⟩, dirty := dirty
          queue := t.path.queue, drain := t.path.drain, sweep := t.path.sweep }
      ∧ (rest.length < 32 ∨ 32 < (unclean rest).length →
          t.path.queue = unclean rest ∧ t.path.drain = s.path.drain ∧ t.path.sweep = s.path.sweep)
      ∧ (32 ≤ rest.length → (unclean rest).length ≤ 32 → swept.Nodup →
          t.path.queue = unclean (low ++ swept.take 96) ∧ t.path.drain = decide (64 ≤ swept.length)
          ∧ t.path.sweep = match swept[95]? with
            | some last => (s.imageCells.find? fun b => last < b).or s.imageCells.head?
            | none => s.path.sweep)
      ∧ t = { s with mem := t.mem, path := t.path }

/-- NOTICE_WORD_WRITE: the words of the oldest staged record go to its slot of the ring in order; with the last the record
leaves staging, its severity is kept, the write index advances and ATTN is evaluated. -/
def Obligations.NoticeWordsFillTheRing : Prop :=
  ∀ (r : Notice) (rest : List Notice) (a : Nat) (s : State), s.Rested → s.path.port = .granted .notice →
    s.notices.staging = r :: rest → s.addressOf ⟨.notice, s.notices.writeIndex.toNat % 64, s.notices.nextWord⟩ = some a →
    ∃ t, exec .noticeWordWrite s = .next t
      ∧ t.mem = s.mem.writeWord a (r.word s.notices.nextWord) allBytes
      ∧ t.path.port = .busy ⟨a, some (r.word s.notices.nextWord), allBytes⟩
      ∧ (s.notices.nextWord < 3 → t.notices = { s.notices with nextWord := s.notices.nextWord + 1 })
      ∧ (3 ≤ s.notices.nextWord →
          t.notices = ({ s.notices with
            staging := rest, nextWord := 0, writeIndex := s.notices.writeIndex + 1
            severities := s.notices.severities.set (s.notices.writeIndex.toNat % 64) (some r.severity) }.evaluate).posting []
          ∧ t.MarkedDirty .general 0 5)
      ∧ t = { s with mem := t.mem, notices := t.notices, path := t.path } ∧ s.SamePath t

/-! ## List Runner -/

/-- LIST_WORD_FETCH: the next word of the entry is read, its status word left out. An entry that asks for more than 40
operands is refused at its header; with the last word, an unknown command is refused BAD_CODE, an option that is unknown, not
meaningful or repeated BAD_OPTION, and an operand count other than the command's fixed one LENGTH, in that order, CONTINUE
acting wherever it is carried on a command for which it is meaningful (also twice: assumption 19); and an END entry is done. -/
def Obligations.EntryIsFetchedAndRun : Prop :=
  ∀ (words : List Word) (s : State), s.Rested → s.runner.phase = .fetching words → s.path.port = .granted .fetch →
    let all := s.entryWords words
    let head := (all.headD 0).toNat
    let command := head % 256
    let optionCount := head / 256 % 8
    let operands := head / 65536 % 64
    let options := (all.tail.take optionCount).map fun w => w.toNat % 256
    let length := 2 + optionCount + operands
    let next : Phase → Prop := fun phase => exec .listWordFetch s = .next (s.afterRead words phase)
    let refused : Reason → Prop := fun reason => next (.statusDue ⟨some reason, command == 1, options.contains 4,
      options.contains 1 && optionMeaningful command 1, length⟩)
    (operands ≤ 40 → all.length ≠ 1 + optionCount + operands → next (.fetching all))
    ∧ (40 < operands → next (.statusDue ⟨some .length, false, false, false, length⟩))
    ∧ (operands ≤ 40 → all.length = 1 + optionCount + operands →
      (command = 0 ∨ 15 < command → next (.statusDue ⟨some .badCode, false, false, false, length⟩))
      ∧ (1 ≤ command → command ≤ 15 → ¬ OptionsLegal command options → refused .badOption)
      ∧ (OptionsLegal command options → ∀ n, fixedOperands command = some n → operands ≠ n → refused .length)
      ∧ (command = 1 → OptionsLegal command options → operands = 0 →
        next (.statusDue ⟨none, true, options.contains 4, false, length⟩)))

/-- R32, R36 to R38, R164: HOLD, with EXTEND on a HELD bay, RELEASE, BAY SERVICE and BAY CLASS, their checks passed, take
effect when the last word of their entry is read, whatever legal options it carries; the zone and its promises follow as for
every change of a bay's state. -/
def Obligations.BayCommandsTakeEffect : Prop :=
  ∀ (words : List Word) (command : Nat) (options operands : List Nat) (s : State), s.Rested → s.Configured → s.Derived →
    s.inService = true → s.LastWord words command options operands →
    OptionsLegal command (options.map (· % 256)) →
    let done : (State → Prop) → Prop := fun effect =>
      ∃ t, exec .listWordFetch s = .next t ∧ s.CommandDone t words options operands
        ∧ t.runner.refusals = s.runner.refusals ∧ effect t
    let hold : Nat → Nat → Hold := fun b seconds => ⟨b, s.after seconds, seconds == 60⟩
    (∀ b seconds, command = 2 → operands = [b, seconds] → b < s.bayCount → 60 ≤ seconds → seconds ≤ 86400 →
      ((s.bay b).state = .free → s.holds.length < 128 → done fun t =>
        s.BayHandled t b (s.bay b) [] ∧ t.holds = s.holds ++ [hold b seconds] ∧ t.plant = s.plant
          ∧ t.MarkedDirty .bay b 0 ∧ t.MarkedDirty .bay b 1 ∧ t.MarkedDirty .general 0 16)
      ∧ ((s.bay b).state = .held → 3 ∈ options.map (· % 256) → done fun t =>
        t.holds = s.holds.map (fun h => if h.bay = b then hold b seconds else h)
          ∧ t.bays = s.bays.modify b (fun r => { r with indicator := t.deriveIndicator b })
          ∧ ((s.bay b).indicator ≠ t.deriveIndicator b → t.IndicatorQueued b)
          ∧ t.MarkedDirty .bay b 1
          ∧ t = { s with holds := t.holds, bays := t.bays, bayLink := t.bayLink, runner := t.runner, path := t.path }))
    ∧ (∀ b, command = 3 → operands = [b] → b < s.bayCount → (s.hold b).isSome = true → done fun t =>
        s.BayHandled t b (s.bay b) [] ∧ t.holds = s.holds.filter (fun h => h.bay != b) ∧ t.plant = s.plant
          ∧ t.MarkedDirty .bay b 1 ∧ t.MarkedDirty .general 0 16)
    ∧ (∀ b, command = 4 → operands = [b, 0] → b < s.bayCount → done fun t =>
        s.BayHandled t b { s.bay b with reasonOperator := true }
            (if (s.bay b).reasonOperator = true then [] else [⟨.bayOut, 1, some b, 1, s.partTime⟩])
          ∧ t.holds = s.holds ∧ t.plant = s.plant ∧ ((s.bay b).reasonOperator = false → t.MarkedDirty .bay b 0))
    ∧ (∀ b, command = 4 → operands = [b, 1] → b < s.bayCount → done fun t =>
        s.BayHandled t b { s.bay b with reasonOperator := false } []
          ∧ t.holds = s.holds ∧ t.plant = s.plant ∧ ((s.bay b).reasonOperator = true → t.MarkedDirty .bay b 0))
    ∧ (∀ b c, command = 5 → operands = [b, BayClass.code c] → b < s.bayCount → s.hold b = none → done fun t =>
        s.BayHandled t b (s.bay b) [] ∧ (t.bay b).indicator = t.deriveIndicator b ∧ t.holds = s.holds
          ∧ t.plant = { s.plant with bays := s.plant.bays.modify b fun r => { r with cls := c } }
          ∧ t.MarkedDirty .bay b 0)

/-- R68 to R71, R89, R164: ZONE PACING, CHAIN, WEIGHTS, POINT ENABLE and ZONE MARKS, their checks passed, take effect when the
last word of their entry is read, whatever legal options it carries. A zone that is not blind has the gas judged at once by
its new marks, and its fume stage follows. -/
def Obligations.GuidanceAndAirCommandsTakeEffect : Prop :=
  ∀ (words : List Word) (command : Nat) (options operands : List Nat) (s : State), s.Rested → s.Configured → s.Derived →
    s.inService = true → s.LastWord words command options operands →
    OptionsLegal command (options.map (· % 256)) →
    let done : (State → Prop) → Prop := fun effect =>
      ∃ t, exec .listWordFetch s = .next t ∧ s.CommandDone t words options operands
        ∧ t.runner.refusals = s.runner.refusals ∧ effect t
    (∀ z limit spacing lifetime, command = 6 → operands = [z, limit, spacing, lifetime] → z < s.zoneCount → 1 ≤ limit →
      limit ≤ 64 → spacing ≤ 30 → 30 ≤ lifetime → lifetime ≤ 600 → s.zonePromises z ≤ limit → done fun t =>
        t = { s with
          plant := { s.plant with zones := s.plant.zones.modify z fun r =>
            { r with promiseLimit := limit, spacing := spacing, promiseLifetime := lifetime } }
          runner := t.runner, path := t.path }
        ∧ t.MarkedDirty .zone z 10)
    ∧ (∀ d code policy entries chain, command = 7 → operands = d :: code :: entries → d < s.pointCount →
        Policy.ofCode code = some policy → allSome chainEntryOf entries = some chain →
        chainOk s.zoneCount s.pointCount chain = true →
        hasCycle ((s.plant.points.map (·.chain)).set d chain) = false → done fun t =>
          t = { s with
            plant := { s.plant with points := s.plant.points.modify d fun r => { r with policy := policy, chain := chain } }
            points := t.points, lampLink := t.lampLink, runner := t.runner, path := t.path }
          ∧ t.point d = { s.point d with pointer := 0, face := (t.point d).face }
          ∧ ((s.point d).state ≠ .idle → (t.point d).face = (s.point d).face)
          ∧ (∀ d', d' ≠ d → s.SamePoint t d') ∧ t.MarkedDirty .point d 4)
    ∧ (∀ d values phases, command = 8 → operands = d :: values → values.length = 32 → d < s.pointCount →
        allSome phaseOf values = some phases → (∀ i, some i ∈ phases → i < (s.pointConfig d).chain.length) → done fun t =>
          t = { s with
            plant := { s.plant with points := s.plant.points.modify d fun r =>
              { r with weights := Table.ofList 32 none phases } }
            points := s.points.modify d fun r => { r with pointer := 0 }
            runner := t.runner, path := t.path }
          ∧ t.MarkedDirty .point d 4)
    ∧ (∀ d, command = 9 → operands = [d, 0] → d < s.pointCount → (s.point d).state ≠ .disabled → done fun t =>
        t.point d = { s.point d with state := .disabled, face := .blank, showTimer := none }
        ∧ (∀ d', d' ≠ d → s.SamePoint t d') ∧ t.SignQueued d ∧ t.MarkedDirty .point d 0
        ∧ t = { s with points := t.points, lampLink := t.lampLink, runner := t.runner, path := t.path })
    ∧ (∀ d, command = 9 → operands = [d, 1] → d < s.pointCount → (s.point d).state = .disabled → done fun t =>
        t.point d = { s.point d with state := .idle, face := .summary (t.summaryNumber d), showTimer := none }
        ∧ (∀ d', d' ≠ d → s.SamePoint t d') ∧ t.SignQueued d ∧ t.MarkedDirty .point d 0
        ∧ t = { s with points := t.points, lampLink := t.lampLink, runner := t.runner, path := t.path })
    ∧ (∀ d direction, command = 9 → operands = [d, direction] → d < s.pointCount →
        ((s.point d).state = .disabled ∧ direction = 0 ∨ (s.point d).state ≠ .disabled ∧ direction = 1) → done fun t =>
          t = { s with runner := t.runner, path := t.path })
    ∧ (∀ z gas u1 u2 u3 u4 l1 l2 l3 l4, command = 10 →
        operands = [z, (match gas with
          | .co => 0
          | .no2 => 1), u1, u2, u3, u4, l1, l2, l3, l4] → z < s.zoneCount →
        0 < u1 → u1 < u2 → u2 < u3 → u3 < u4 → 0 < l1 → l1 < l2 → l2 < l3 → l3 < l4 →
        l1 < u1 → l2 < u2 → l3 < u3 → l4 < u4 → u4 ≤ (match gas with
          | .co => 1000
          | .no2 => 250) → done fun t =>
          let m : Marks := ⟨u1, u2, u3, u4, l1, l2, l3, l4⟩
          t.plant = { s.plant with zones := s.plant.zones.modify z fun r => match gas with
            | .co => { r with coMarks := m }
            | .no2 => { r with no2Marks := m } }
          ∧ t.sensors = s.sensors ∧ t.airLink = s.airLink
          ∧ ((s.zoneGas z).blind = true → t = { s with plant := t.plant, runner := t.runner, path := t.path })
          ∧ ((s.zoneGas z).blind = false →
              t.zoneGas z = (s.zoneGas z).setStage gas ((t.zoneGas z).stage gas) ((t.zoneGas z).timer gas)
              ∧ s.GasJudged t z gas m ∧ s.FumeHandled t z []))

/-- R97, R123, R139, R167, R174, R164: STAGE MAP, SCENE (of several pairs, the last to name a string standing, with FADE or
without), CAP, CLEAR COUNTS and RESTART, their checks passed, take effect when the last word of their entry is read, whatever
legal options it carries. -/
def Obligations.PlantCommandsTakeEffect : Prop :=
  ∀ (words : List Word) (command : Nat) (options operands : List Nat) (s : State), s.Rested → s.Configured → s.Derived →
    s.inService = true → s.LastWord words command options operands →
    OptionsLegal command (options.map (· % 256)) →
    let done : (State → Prop) → Prop := fun effect =>
      ∃ t, exec .listWordFetch s = .next t ∧ s.CommandDone t words options operands
        ∧ (command ≠ 14 → t.runner.refusals = s.runner.refusals) ∧ effect t
    let fade : Option Nat := (options.find? fun o => o % 256 == 2).map (· / 65536)
    (∀ z s0 s1 s2 s3 s4, command = 11 → operands = [z, s0, s1, s2, s3, s4] → z < s.zoneCount →
        s0 ≤ s1 → s1 ≤ s2 → s2 ≤ s3 → s3 ≤ s4 → s4 ≤ 6 → done fun t =>
          t.plant = { s.plant with zones := s.plant.zones.modify z fun r =>
            { r with stageMap := Table.ofList 5 0 [s0, s1, s2, s3, s4] } }
          ∧ (∀ g, g < s.groupCount → z ∈ (s.groupConfig g).served → (t.group g).p = t.composeP g)
          ∧ (∀ g, ¬ (g < s.groupCount ∧ z ∈ (s.groupConfig g).served) → t.group g = s.group g)
          ∧ (∀ g, s.SameGroup t g ∧ (t.group g).q = (s.group g).q)
          ∧ t.notices = s.notices.posting (s.overCapNotice t)
          ∧ t = { s with
              plant := t.plant, groups := t.groups, lines := t.lines, budget := t.budget, notices := t.notices
              runner := t.runner, path := t.path })
    ∧ (command = 12 → operands ≠ [] → (∀ o ∈ operands, o < 65536 ∧ o % 256 < s.stringCount ∧ o / 256 ≤ 63) →
        (∀ rate, fade = some rate → 1 ≤ rate ∧ rate ≤ 63) → done fun t =>
          let last : Nat → Option Nat := fun k => (operands.reverse.find? fun o => o % 256 == k).map (· / 256)
          (∀ k, last k = none → t.lampString k = s.lampString k ∧ t.stringConfig k = s.stringConfig k)
          ∧ (∀ k level, last k = some level →
              let c := t.stringConfig k
              let r := t.lampString k
              c = { s.stringConfig k with fadeRate := fade.getD (s.stringConfig k).fadeRate }
              ∧ (∀ p, r.levels.getD p 0 = if p < c.count then level else (s.lampString k).levels.getD p 0)
              ∧ (∀ p, p < c.count → r.levels.getD p 0 ≠ (s.lampString k).levels.getD p 0 → t.MarkedDirty .string k (p / 4))
              ∧ (∀ p, p < c.count →
                  let old := (s.lampString k).luminaires.getD p Luminaire.reset
                  let unbudgeted := unbudgetedTarget c r level old.boost.isSome
                  r.luminaires.getD p Luminaire.reset = ⟨old.boost, unbudgeted, targetLevel c r unbudgeted,
                    if r.override = true then old.output else max old.output c.safety⟩)
              ∧ r = { s.lampString k with
                  levels := r.levels, grant := r.grant, luminaires := r.luminaires, fadeTimer := r.fadeTimer }
              ∧ (t.stringClaim k).prot = protectedClaim c r ∧ (t.stringClaim k).disc = wholeClaim c r - protectedClaim c r
              ∧ ((s.lampString k).fadeTimer.isSome = true → r.fadeTimer =
                  if fade.isSome = true then some ⟨s.partTime, .fraction c.fadeRate⟩ else (s.lampString k).fadeTimer)
              ∧ ((s.lampString k).fadeTimer = none → r.fadeTimer =
                  if (List.range c.count).any (fun p => let l := r.luminaires.getD p Luminaire.reset
                      l.output != l.target) = true then some ⟨s.partTime, .fraction c.fadeRate⟩
                  else none))
          ∧ t.stringCount = s.stringCount ∧ t.notices = s.notices.posting (s.overCapNotice t)
          ∧ t = { s with
              plant := { s.plant with strings := t.plant.strings }
              strings := t.strings, lampLink := t.lampLink, budget := t.budget, notices := t.notices
              runner := t.runner, path := t.path })
    ∧ (∀ v, command = 13 → operands = [v] → v ≤ 65535 → done fun t =>
          t.budget.cap = v ∧ (s.budget.cap ≠ v → t.MarkedDirty .general 0 13) ∧ t.GrantsStand ∧ t.CapRespected
          ∧ (∀ k, (t.stringClaim k).prot = (s.stringClaim k).prot ∧ (t.stringClaim k).disc = (s.stringClaim k).disc)
          ∧ (∀ g, t.groupClaim g = { s.groupClaim g with g := (t.groupClaim g).g })
          ∧ t.notices = s.notices.posting (s.overCapNotice t)
          ∧ t = { s with budget := t.budget, notices := t.notices, runner := t.runner, path := t.path })
    ∧ (command = 14 → operands = [] → done fun t =>
          (∀ z, z < s.zoneCount → t.zone z = { s.zone z with
            paced := 0, unpromised := 0, lapsed := 0, recalled := 0, withdrawn := 0 })
          ∧ (∀ d, d < s.pointCount → t.point d = { s.point d with passages := 0, turnedAway := 0, poolEmpty := 0 })
          ∧ (∀ g, g < s.groupCount → t.group g = { s.group g with failedCommands := 0 })
          ∧ t.runner.refusals = 0
          ∧ t = { s with
              zones := t.zones, points := t.points, groups := t.groups, stray := 0
              notices := { s.notices with lost := 0, guarded := 0, rejected := 0 }
              runner := t.runner, path := t.path })
    ∧ (command = 15 → operands = [] → done fun t =>
          (∀ x ∈ s.reportCells, x ∈ t.path.dirty)
          ∧ (∀ z, z < s.zoneCount → t.zone z = { s.zone z with access := t.deriveAccess z })
          ∧ (∀ b, b < s.bayCount → t.IndicatorQueued b)
          ∧ (∀ d, d < s.pointCount → t.SignQueued d
              ∧ ((s.point d).state = .showing ∨ (s.point d).state = .fullShown → t.point d = { s.point d with
                  state := .idle, face := .summary (t.summaryNumber d), showTimer := none, pointer := 0 })
              ∧ ((s.point d).state = .idle → t.point d = { s.point d with face := .summary (t.summaryNumber d), pointer := 0 })
              ∧ ((s.point d).state = .disabled → t.point d = { s.point d with pointer := 0 }))
          ∧ (∀ g, g < s.groupCount → t.group g =
              (if (s.group g).state = .inFlight then { s.group g with failureCount := 0, resend := true }
              else { s.group g with
                failureCount := 0, state := .inFlight, command := some ⟨(s.group g).k, ⟨none, none, none⟩⟩
                retryTimer := if (s.group g).state = .ready then (s.group g).retryTimer else none }))
          ∧ (∀ l, (t.line l).queue = (s.line l).queue ++ (List.range s.groupCount).filter fun g =>
              (s.group g).state != .inFlight && (s.groupConfig g).lines.contains l)
          ∧ (∀ k, k < s.stringCount →
              let c := s.stringConfig k
              let r := t.lampString k
              r = { s.lampString k with
                retryTimer := if (s.lampString k).link = .unreachable then none else (s.lampString k).retryTimer
                grant := r.grant, luminaires := r.luminaires, fadeTimer := r.fadeTimer }
              ∧ (∀ p, p < c.count →
                  let old := (s.lampString k).luminaires.getD p Luminaire.reset
                  let unbudgeted := unbudgetedTarget c r (r.levels.getD p 0) false
                  r.luminaires.getD p Luminaire.reset = ⟨none, unbudgeted, targetLevel c r unbudgeted,
                    if r.override = true then old.output else max old.output c.safety⟩)
              ∧ (t.stringClaim k).prot = protectedClaim c r ∧ (t.stringClaim k).disc = wholeClaim c r - protectedClaim c r
              ∧ t.StringQueued k)
          ∧ t.notices = s.notices.posting ((List.range s.zoneCount).flatMap (s.accessNotice t) ++ s.overCapNotice t)
          ∧ t = { s with
              pool := [], zones := t.zones, points := t.points, groups := t.groups, lines := t.lines, strings := t.strings
              bayLink := t.bayLink, lampLink := t.lampLink, budget := t.budget, notices := t.notices
              runner := t.runner, path := t.path })

/-- STATUS_WRITE and LIST_CLOSING_WRITE: the entry's outcome goes to its status word, and the list ends or goes on by the
first case of R166; a closing write puts the last status into the next entry's status word and ends the list. -/
def Obligations.StatusDecidesTheList : Prop :=
  ∀ s : State, s.Rested → s.path.port = .granted .status →
    let wrote : Nat → Word → State → Prop := fun a w t =>
      t.mem = s.mem.writeWord a w allBytes ∧ t.path.port = .busy ⟨a, some w, allBytes⟩ ∧ s.SamePath t
        ∧ t.MarkedDirty .general 0 4
        ∧ t = { s with mem := t.mem, runner := t.runner, notices := t.notices, path := t.path }
    let ended : ListResult → Runner → Runner := fun result r => { r with phase := .idle, result := result, abort := false }
    let told : ListResult → List Notice := fun result => [⟨.listDone, 0, none, BitVec.ofNat 32 result.code, s.partTime⟩]
    (∀ o, s.runner.phase = .statusDue o →
      let r := { s.runner with entriesDone := s.runner.entriesDone + 1 }
      let w := BitVec.ofNat 32 (match o.refusal with
        | none => 1
        | some reason => 2 + 256 * reason.code)
      let closing := s.runner.entryAddress + o.length + 1
      ∃ t, exec .statusWrite s = .next t ∧ wrote (s.runner.entryAddress + 1) w t
        ∧ (o.isEnd = true → o.refusal = none →
            t.runner = ended .complete r
            ∧ t.notices = s.notices.posting (if o.silent = true then [] else told .complete))
        ∧ (o.refusal.isSome = true → o.continues = false →
            t.runner = ended .stopped r ∧ t.notices = s.notices.posting (told .stopped))
        ∧ (¬ (o.isEnd = true ∧ o.refusal = none) → ¬ (o.refusal.isSome = true ∧ o.continues = false) →
            t.notices = s.notices
            ∧ t.runner = (if s.runner.abort = true then { r with phase := .closingDue .aborted closing 3 }
              else if s.runner.entryIndex = 63 then { r with phase := .closingDue .limit closing (2 + 256 * 8) }
              else { r with
                phase := .fetching [], entryIndex := s.runner.entryIndex + 1
                entryAddress := s.runner.entryAddress + o.length })))
    ∧ (∀ result a w, s.runner.phase = .closingDue result a w →
      ∃ t, exec .listClosingWrite s = .next t ∧ wrote a w t
        ∧ t.runner = ended result s.runner ∧ t.notices = s.notices.posting (told result))

/-- R164: an entry that is refused changes nothing in any block, and an entry whose options and operand count pass is refused
by its owner with the reason of the first of the owner's checks that fails (R32, R36 to R38, R68 to R71, R89, R97, R123,
R139). -/
def Obligations.RefusedEntryChangesNothing : Prop :=
  (∀ (words : List Word) (o : EntryOutcome) (s t : State), s.Rested → s.runner.phase = .fetching words →
    s.path.port = .granted .fetch → exec .listWordFetch s = .next t → t.runner.phase = .statusDue o →
    o.refusal.isSome = true → t = s.afterRead words (.statusDue o))
  ∧ ∀ (words : List Word) (command : Nat) (options operands : List Nat) (s : State), s.Rested → s.Configured → s.Derived →
    s.LastWord words command options operands → OptionsLegal command (options.map (· % 256)) →
    let refused : Reason → Prop := fun reason =>
      exec .listWordFetch s = .next (s.afterRead words (.statusDue (State.entryOutcome options operands (some reason))))
    let noBay : Nat → Prop := fun b => s.bayCount ≤ b
    (∀ b seconds, command = 2 → operands = [b, seconds] →
      (noBay b ∨ seconds < 60 ∨ 86400 < seconds → refused .range)
      ∧ (¬ noBay b → 60 ≤ seconds → seconds ≤ 86400 →
        ((s.bay b).state = .free → 128 ≤ s.holds.length → refused .poolFull)
        ∧ ((s.bay b).state = .held → 3 ∉ options.map (· % 256) → refused .state)
        ∧ ((s.bay b).state = .occupied ∨ (s.bay b).state = .unknown ∨ (s.bay b).state = .outOfService →
            refused .notFree)))
    ∧ (∀ b, command = 3 → operands = [b] →
      (noBay b → refused .range) ∧ (¬ noBay b → s.hold b = none → refused .state))
    ∧ (∀ b direction, command = 4 → operands = [b, direction] → noBay b ∨ 2 ≤ direction → refused .range)
    ∧ (∀ b code, command = 5 → operands = [b, code] →
      (noBay b ∨ 4 ≤ code → refused .range) ∧ (¬ noBay b → code < 4 → (s.hold b).isSome = true → refused .state))
    ∧ (∀ z limit spacing lifetime, command = 6 → operands = [z, limit, spacing, lifetime] →
      let badRange := s.zoneCount ≤ z ∨ limit = 0 ∨ 64 < limit ∨ 30 < spacing ∨ lifetime < 30 ∨ 600 < lifetime
      (badRange → refused .range) ∧ (¬ badRange → limit < s.zonePromises z → refused .state))
    ∧ (command = 7 →
      let badRange := ∀ d code entries policy chain, operands = d :: code :: entries → Policy.ofCode code = some policy →
        allSome chainEntryOf entries = some chain → d < s.pointCount →
        chainOk s.zoneCount s.pointCount chain = false
      (badRange → refused .range)
      ∧ ∀ d code entries policy chain, operands = d :: code :: entries → Policy.ofCode code = some policy →
          allSome chainEntryOf entries = some chain → d < s.pointCount → chainOk s.zoneCount s.pointCount chain = true →
          hasCycle ((s.plant.points.map (·.chain)).set d chain) = true → refused .loop)
    ∧ (∀ d values, command = 8 → operands = d :: values → values.length = 32 →
      (s.pointCount ≤ d
        ∨ ∃ v ∈ values, v ≠ 255 ∧ (8 ≤ v ∨ (s.pointConfig d).chain.length ≤ v)) → refused .range)
    ∧ (∀ d direction, command = 9 → operands = [d, direction] → s.pointCount ≤ d ∨ 2 ≤ direction → refused .range)
    ∧ (∀ z gas u1 u2 u3 u4 l1 l2 l3 l4, command = 10 → operands = [z, gas, u1, u2, u3, u4, l1, l2, l3, l4] →
      (s.zoneCount ≤ z ∨ 2 ≤ gas
        ∨ (∃ m ∈ [u1, u2, u3, u4, l1, l2, l3, l4], m = 0 ∨ (if gas = 0 then 1000 else 250) < m)
        ∨ ¬ (u1 < u2 ∧ u2 < u3 ∧ u3 < u4) ∨ ¬ (l1 < l2 ∧ l2 < l3 ∧ l3 < l4)
        ∨ ¬ (l1 < u1 ∧ l2 < u2 ∧ l3 < u3 ∧ l4 < u4)) → refused .range)
    ∧ (∀ z s0 s1 s2 s3 s4, command = 11 → operands = [z, s0, s1, s2, s3, s4] →
      (s.zoneCount ≤ z ∨ ¬ (s0 ≤ s1 ∧ s1 ≤ s2 ∧ s2 ≤ s3 ∧ s3 ≤ s4 ∧ s4 ≤ 6)) → refused .range)
    ∧ (command = 12 →
      (operands = [] ∨ (∃ o ∈ operands, 65536 ≤ o ∨ s.stringCount ≤ o % 256 ∨ 63 < o / 256)
        ∨ ∃ o ∈ options, o % 256 = 2 ∧ (o / 65536 = 0 ∨ 63 < o / 65536)) → refused .range)
    ∧ (∀ v, command = 13 → operands = [v] → 65535 < v → refused .range)
end

