-- ==== Sys2Proof/Laws/State.lean ====
section
/-! SUPPORT. What each update of an event does to each field of the state, one lemma per field and update, and what it
does to the event's own lists. -/

namespace Sys2Proof.Machine.Ev

variable (e : Ev)

/-! ### modifyZone -/

@[simp] theorem modifyZone_pending (z : Nat) (f : Zone → Zone) :
    (e.modifyZone z f).s.pending = e.s.pending := rfl
@[simp] theorem modifyZone_loader (z : Nat) (f : Zone → Zone) :
    (e.modifyZone z f).s.loader = e.s.loader := rfl
@[simp] theorem modifyZone_plant (z : Nat) (f : Zone → Zone) :
    (e.modifyZone z f).s.plant = e.s.plant := rfl
@[simp] theorem modifyZone_zones (z : Nat) (f : Zone → Zone) :
    (e.modifyZone z f).s.zones = e.s.zones.modify z f := rfl
@[simp] theorem modifyZone_bays (z : Nat) (f : Zone → Zone) :
    (e.modifyZone z f).s.bays = e.s.bays := rfl
@[simp] theorem modifyZone_holds (z : Nat) (f : Zone → Zone) :
    (e.modifyZone z f).s.holds = e.s.holds := rfl
@[simp] theorem modifyZone_stray (z : Nat) (f : Zone → Zone) :
    (e.modifyZone z f).s.stray = e.s.stray := rfl
@[simp] theorem modifyZone_bayLink (z : Nat) (f : Zone → Zone) :
    (e.modifyZone z f).s.bayLink = e.s.bayLink := rfl
@[simp] theorem modifyZone_points (z : Nat) (f : Zone → Zone) :
    (e.modifyZone z f).s.points = e.s.points := rfl
@[simp] theorem modifyZone_pool (z : Nat) (f : Zone → Zone) :
    (e.modifyZone z f).s.pool = e.s.pool := rfl
@[simp] theorem modifyZone_sensors (z : Nat) (f : Zone → Zone) :
    (e.modifyZone z f).s.sensors = e.s.sensors := rfl
@[simp] theorem modifyZone_gas (z : Nat) (f : Zone → Zone) :
    (e.modifyZone z f).s.gas = e.s.gas := rfl
@[simp] theorem modifyZone_airLink (z : Nat) (f : Zone → Zone) :
    (e.modifyZone z f).s.airLink = e.s.airLink := rfl
@[simp] theorem modifyZone_groups (z : Nat) (f : Zone → Zone) :
    (e.modifyZone z f).s.groups = e.s.groups := rfl
@[simp] theorem modifyZone_lines (z : Nat) (f : Zone → Zone) :
    (e.modifyZone z f).s.lines = e.s.lines := rfl
@[simp] theorem modifyZone_strings (z : Nat) (f : Zone → Zone) :
    (e.modifyZone z f).s.strings = e.s.strings := rfl
@[simp] theorem modifyZone_allFull (z : Nat) (f : Zone → Zone) :
    (e.modifyZone z f).s.allFull = e.s.allFull := rfl
@[simp] theorem modifyZone_lampLink (z : Nat) (f : Zone → Zone) :
    (e.modifyZone z f).s.lampLink = e.s.lampLink := rfl
@[simp] theorem modifyZone_budget (z : Nat) (f : Zone → Zone) :
    (e.modifyZone z f).s.budget = e.s.budget := rfl
@[simp] theorem modifyZone_path (z : Nat) (f : Zone → Zone) :
    (e.modifyZone z f).s.path = e.s.path := rfl
@[simp] theorem modifyZone_notices (z : Nat) (f : Zone → Zone) :
    (e.modifyZone z f).s.notices = e.s.notices := rfl
@[simp] theorem modifyZone_runner (z : Nat) (f : Zone → Zone) :
    (e.modifyZone z f).s.runner = e.s.runner := rfl
@[simp] theorem modifyZone_mem (z : Nat) (f : Zone → Zone) :
    (e.modifyZone z f).s.mem = e.s.mem := rfl
@[simp] theorem modifyZone_ev_marks (z : Nat) (f : Zone → Zone) : (e.modifyZone z f).marks = e.marks := rfl
@[simp] theorem modifyZone_ev_strings (z : Nat) (f : Zone → Zone) : (e.modifyZone z f).strings = e.strings := rfl
@[simp] theorem modifyZone_ev_groups (z : Nat) (f : Zone → Zone) : (e.modifyZone z f).groups = e.groups := rfl
@[simp] theorem modifyZone_ev_pass (z : Nat) (f : Zone → Zone) : (e.modifyZone z f).pass = e.pass := rfl

/-! ### modifyBay -/

@[simp] theorem modifyBay_pending (b : Nat) (f : Bay → Bay) :
    (e.modifyBay b f).s.pending = e.s.pending := rfl
@[simp] theorem modifyBay_loader (b : Nat) (f : Bay → Bay) :
    (e.modifyBay b f).s.loader = e.s.loader := rfl
@[simp] theorem modifyBay_plant (b : Nat) (f : Bay → Bay) :
    (e.modifyBay b f).s.plant = e.s.plant := rfl
@[simp] theorem modifyBay_zones (b : Nat) (f : Bay → Bay) :
    (e.modifyBay b f).s.zones = e.s.zones := rfl
@[simp] theorem modifyBay_bays (b : Nat) (f : Bay → Bay) :
    (e.modifyBay b f).s.bays = e.s.bays.modify b f := rfl
@[simp] theorem modifyBay_holds (b : Nat) (f : Bay → Bay) :
    (e.modifyBay b f).s.holds = e.s.holds := rfl
@[simp] theorem modifyBay_stray (b : Nat) (f : Bay → Bay) :
    (e.modifyBay b f).s.stray = e.s.stray := rfl
@[simp] theorem modifyBay_bayLink (b : Nat) (f : Bay → Bay) :
    (e.modifyBay b f).s.bayLink = e.s.bayLink := rfl
@[simp] theorem modifyBay_points (b : Nat) (f : Bay → Bay) :
    (e.modifyBay b f).s.points = e.s.points := rfl
@[simp] theorem modifyBay_pool (b : Nat) (f : Bay → Bay) :
    (e.modifyBay b f).s.pool = e.s.pool := rfl
@[simp] theorem modifyBay_sensors (b : Nat) (f : Bay → Bay) :
    (e.modifyBay b f).s.sensors = e.s.sensors := rfl
@[simp] theorem modifyBay_gas (b : Nat) (f : Bay → Bay) :
    (e.modifyBay b f).s.gas = e.s.gas := rfl
@[simp] theorem modifyBay_airLink (b : Nat) (f : Bay → Bay) :
    (e.modifyBay b f).s.airLink = e.s.airLink := rfl
@[simp] theorem modifyBay_groups (b : Nat) (f : Bay → Bay) :
    (e.modifyBay b f).s.groups = e.s.groups := rfl
@[simp] theorem modifyBay_lines (b : Nat) (f : Bay → Bay) :
    (e.modifyBay b f).s.lines = e.s.lines := rfl
@[simp] theorem modifyBay_strings (b : Nat) (f : Bay → Bay) :
    (e.modifyBay b f).s.strings = e.s.strings := rfl
@[simp] theorem modifyBay_allFull (b : Nat) (f : Bay → Bay) :
    (e.modifyBay b f).s.allFull = e.s.allFull := rfl
@[simp] theorem modifyBay_lampLink (b : Nat) (f : Bay → Bay) :
    (e.modifyBay b f).s.lampLink = e.s.lampLink := rfl
@[simp] theorem modifyBay_budget (b : Nat) (f : Bay → Bay) :
    (e.modifyBay b f).s.budget = e.s.budget := rfl
@[simp] theorem modifyBay_path (b : Nat) (f : Bay → Bay) :
    (e.modifyBay b f).s.path = e.s.path := rfl
@[simp] theorem modifyBay_notices (b : Nat) (f : Bay → Bay) :
    (e.modifyBay b f).s.notices = e.s.notices := rfl
@[simp] theorem modifyBay_runner (b : Nat) (f : Bay → Bay) :
    (e.modifyBay b f).s.runner = e.s.runner := rfl
@[simp] theorem modifyBay_mem (b : Nat) (f : Bay → Bay) :
    (e.modifyBay b f).s.mem = e.s.mem := rfl
@[simp] theorem modifyBay_ev_marks (b : Nat) (f : Bay → Bay) : (e.modifyBay b f).marks = e.marks := rfl
@[simp] theorem modifyBay_ev_strings (b : Nat) (f : Bay → Bay) : (e.modifyBay b f).strings = e.strings := rfl
@[simp] theorem modifyBay_ev_groups (b : Nat) (f : Bay → Bay) : (e.modifyBay b f).groups = e.groups := rfl
@[simp] theorem modifyBay_ev_pass (b : Nat) (f : Bay → Bay) : (e.modifyBay b f).pass = e.pass := rfl

/-! ### modifyPoint -/

@[simp] theorem modifyPoint_pending (d : Nat) (f : Point → Point) :
    (e.modifyPoint d f).s.pending = e.s.pending := rfl
@[simp] theorem modifyPoint_loader (d : Nat) (f : Point → Point) :
    (e.modifyPoint d f).s.loader = e.s.loader := rfl
@[simp] theorem modifyPoint_plant (d : Nat) (f : Point → Point) :
    (e.modifyPoint d f).s.plant = e.s.plant := rfl
@[simp] theorem modifyPoint_zones (d : Nat) (f : Point → Point) :
    (e.modifyPoint d f).s.zones = e.s.zones := rfl
@[simp] theorem modifyPoint_bays (d : Nat) (f : Point → Point) :
    (e.modifyPoint d f).s.bays = e.s.bays := rfl
@[simp] theorem modifyPoint_holds (d : Nat) (f : Point → Point) :
    (e.modifyPoint d f).s.holds = e.s.holds := rfl
@[simp] theorem modifyPoint_stray (d : Nat) (f : Point → Point) :
    (e.modifyPoint d f).s.stray = e.s.stray := rfl
@[simp] theorem modifyPoint_bayLink (d : Nat) (f : Point → Point) :
    (e.modifyPoint d f).s.bayLink = e.s.bayLink := rfl
@[simp] theorem modifyPoint_points (d : Nat) (f : Point → Point) :
    (e.modifyPoint d f).s.points = e.s.points.modify d f := rfl
@[simp] theorem modifyPoint_pool (d : Nat) (f : Point → Point) :
    (e.modifyPoint d f).s.pool = e.s.pool := rfl
@[simp] theorem modifyPoint_sensors (d : Nat) (f : Point → Point) :
    (e.modifyPoint d f).s.sensors = e.s.sensors := rfl
@[simp] theorem modifyPoint_gas (d : Nat) (f : Point → Point) :
    (e.modifyPoint d f).s.gas = e.s.gas := rfl
@[simp] theorem modifyPoint_airLink (d : Nat) (f : Point → Point) :
    (e.modifyPoint d f).s.airLink = e.s.airLink := rfl
@[simp] theorem modifyPoint_groups (d : Nat) (f : Point → Point) :
    (e.modifyPoint d f).s.groups = e.s.groups := rfl
@[simp] theorem modifyPoint_lines (d : Nat) (f : Point → Point) :
    (e.modifyPoint d f).s.lines = e.s.lines := rfl
@[simp] theorem modifyPoint_strings (d : Nat) (f : Point → Point) :
    (e.modifyPoint d f).s.strings = e.s.strings := rfl
@[simp] theorem modifyPoint_allFull (d : Nat) (f : Point → Point) :
    (e.modifyPoint d f).s.allFull = e.s.allFull := rfl
@[simp] theorem modifyPoint_lampLink (d : Nat) (f : Point → Point) :
    (e.modifyPoint d f).s.lampLink = e.s.lampLink := rfl
@[simp] theorem modifyPoint_budget (d : Nat) (f : Point → Point) :
    (e.modifyPoint d f).s.budget = e.s.budget := rfl
@[simp] theorem modifyPoint_path (d : Nat) (f : Point → Point) :
    (e.modifyPoint d f).s.path = e.s.path := rfl
@[simp] theorem modifyPoint_notices (d : Nat) (f : Point → Point) :
    (e.modifyPoint d f).s.notices = e.s.notices := rfl
@[simp] theorem modifyPoint_runner (d : Nat) (f : Point → Point) :
    (e.modifyPoint d f).s.runner = e.s.runner := rfl
@[simp] theorem modifyPoint_mem (d : Nat) (f : Point → Point) :
    (e.modifyPoint d f).s.mem = e.s.mem := rfl
@[simp] theorem modifyPoint_ev_marks (d : Nat) (f : Point → Point) : (e.modifyPoint d f).marks = e.marks := rfl
@[simp] theorem modifyPoint_ev_strings (d : Nat) (f : Point → Point) : (e.modifyPoint d f).strings = e.strings := rfl
@[simp] theorem modifyPoint_ev_groups (d : Nat) (f : Point → Point) : (e.modifyPoint d f).groups = e.groups := rfl
@[simp] theorem modifyPoint_ev_pass (d : Nat) (f : Point → Point) : (e.modifyPoint d f).pass = e.pass := rfl

/-! ### modifySensor -/

@[simp] theorem modifySensor_pending (n : Nat) (f : Sensor → Sensor) :
    (e.modifySensor n f).s.pending = e.s.pending := rfl
@[simp] theorem modifySensor_loader (n : Nat) (f : Sensor → Sensor) :
    (e.modifySensor n f).s.loader = e.s.loader := rfl
@[simp] theorem modifySensor_plant (n : Nat) (f : Sensor → Sensor) :
    (e.modifySensor n f).s.plant = e.s.plant := rfl
@[simp] theorem modifySensor_zones (n : Nat) (f : Sensor → Sensor) :
    (e.modifySensor n f).s.zones = e.s.zones := rfl
@[simp] theorem modifySensor_bays (n : Nat) (f : Sensor → Sensor) :
    (e.modifySensor n f).s.bays = e.s.bays := rfl
@[simp] theorem modifySensor_holds (n : Nat) (f : Sensor → Sensor) :
    (e.modifySensor n f).s.holds = e.s.holds := rfl
@[simp] theorem modifySensor_stray (n : Nat) (f : Sensor → Sensor) :
    (e.modifySensor n f).s.stray = e.s.stray := rfl
@[simp] theorem modifySensor_bayLink (n : Nat) (f : Sensor → Sensor) :
    (e.modifySensor n f).s.bayLink = e.s.bayLink := rfl
@[simp] theorem modifySensor_points (n : Nat) (f : Sensor → Sensor) :
    (e.modifySensor n f).s.points = e.s.points := rfl
@[simp] theorem modifySensor_pool (n : Nat) (f : Sensor → Sensor) :
    (e.modifySensor n f).s.pool = e.s.pool := rfl
@[simp] theorem modifySensor_sensors (n : Nat) (f : Sensor → Sensor) :
    (e.modifySensor n f).s.sensors = e.s.sensors.modify n f := rfl
@[simp] theorem modifySensor_gas (n : Nat) (f : Sensor → Sensor) :
    (e.modifySensor n f).s.gas = e.s.gas := rfl
@[simp] theorem modifySensor_airLink (n : Nat) (f : Sensor → Sensor) :
    (e.modifySensor n f).s.airLink = e.s.airLink := rfl
@[simp] theorem modifySensor_groups (n : Nat) (f : Sensor → Sensor) :
    (e.modifySensor n f).s.groups = e.s.groups := rfl
@[simp] theorem modifySensor_lines (n : Nat) (f : Sensor → Sensor) :
    (e.modifySensor n f).s.lines = e.s.lines := rfl
@[simp] theorem modifySensor_strings (n : Nat) (f : Sensor → Sensor) :
    (e.modifySensor n f).s.strings = e.s.strings := rfl
@[simp] theorem modifySensor_allFull (n : Nat) (f : Sensor → Sensor) :
    (e.modifySensor n f).s.allFull = e.s.allFull := rfl
@[simp] theorem modifySensor_lampLink (n : Nat) (f : Sensor → Sensor) :
    (e.modifySensor n f).s.lampLink = e.s.lampLink := rfl
@[simp] theorem modifySensor_budget (n : Nat) (f : Sensor → Sensor) :
    (e.modifySensor n f).s.budget = e.s.budget := rfl
@[simp] theorem modifySensor_path (n : Nat) (f : Sensor → Sensor) :
    (e.modifySensor n f).s.path = e.s.path := rfl
@[simp] theorem modifySensor_notices (n : Nat) (f : Sensor → Sensor) :
    (e.modifySensor n f).s.notices = e.s.notices := rfl
@[simp] theorem modifySensor_runner (n : Nat) (f : Sensor → Sensor) :
    (e.modifySensor n f).s.runner = e.s.runner := rfl
@[simp] theorem modifySensor_mem (n : Nat) (f : Sensor → Sensor) :
    (e.modifySensor n f).s.mem = e.s.mem := rfl
@[simp] theorem modifySensor_ev_marks (n : Nat) (f : Sensor → Sensor) : (e.modifySensor n f).marks = e.marks := rfl
@[simp] theorem modifySensor_ev_strings (n : Nat) (f : Sensor → Sensor) : (e.modifySensor n f).strings = e.strings := rfl
@[simp] theorem modifySensor_ev_groups (n : Nat) (f : Sensor → Sensor) : (e.modifySensor n f).groups = e.groups := rfl
@[simp] theorem modifySensor_ev_pass (n : Nat) (f : Sensor → Sensor) : (e.modifySensor n f).pass = e.pass := rfl

/-! ### modifyGas -/

@[simp] theorem modifyGas_pending (z : Nat) (f : ZoneGas → ZoneGas) :
    (e.modifyGas z f).s.pending = e.s.pending := rfl
@[simp] theorem modifyGas_loader (z : Nat) (f : ZoneGas → ZoneGas) :
    (e.modifyGas z f).s.loader = e.s.loader := rfl
@[simp] theorem modifyGas_plant (z : Nat) (f : ZoneGas → ZoneGas) :
    (e.modifyGas z f).s.plant = e.s.plant := rfl
@[simp] theorem modifyGas_zones (z : Nat) (f : ZoneGas → ZoneGas) :
    (e.modifyGas z f).s.zones = e.s.zones := rfl
@[simp] theorem modifyGas_bays (z : Nat) (f : ZoneGas → ZoneGas) :
    (e.modifyGas z f).s.bays = e.s.bays := rfl
@[simp] theorem modifyGas_holds (z : Nat) (f : ZoneGas → ZoneGas) :
    (e.modifyGas z f).s.holds = e.s.holds := rfl
@[simp] theorem modifyGas_stray (z : Nat) (f : ZoneGas → ZoneGas) :
    (e.modifyGas z f).s.stray = e.s.stray := rfl
@[simp] theorem modifyGas_bayLink (z : Nat) (f : ZoneGas → ZoneGas) :
    (e.modifyGas z f).s.bayLink = e.s.bayLink := rfl
@[simp] theorem modifyGas_points (z : Nat) (f : ZoneGas → ZoneGas) :
    (e.modifyGas z f).s.points = e.s.points := rfl
@[simp] theorem modifyGas_pool (z : Nat) (f : ZoneGas → ZoneGas) :
    (e.modifyGas z f).s.pool = e.s.pool := rfl
@[simp] theorem modifyGas_sensors (z : Nat) (f : ZoneGas → ZoneGas) :
    (e.modifyGas z f).s.sensors = e.s.sensors := rfl
@[simp] theorem modifyGas_gas (z : Nat) (f : ZoneGas → ZoneGas) :
    (e.modifyGas z f).s.gas = e.s.gas.modify z f := rfl
@[simp] theorem modifyGas_airLink (z : Nat) (f : ZoneGas → ZoneGas) :
    (e.modifyGas z f).s.airLink = e.s.airLink := rfl
@[simp] theorem modifyGas_groups (z : Nat) (f : ZoneGas → ZoneGas) :
    (e.modifyGas z f).s.groups = e.s.groups := rfl
@[simp] theorem modifyGas_lines (z : Nat) (f : ZoneGas → ZoneGas) :
    (e.modifyGas z f).s.lines = e.s.lines := rfl
@[simp] theorem modifyGas_strings (z : Nat) (f : ZoneGas → ZoneGas) :
    (e.modifyGas z f).s.strings = e.s.strings := rfl
@[simp] theorem modifyGas_allFull (z : Nat) (f : ZoneGas → ZoneGas) :
    (e.modifyGas z f).s.allFull = e.s.allFull := rfl
@[simp] theorem modifyGas_lampLink (z : Nat) (f : ZoneGas → ZoneGas) :
    (e.modifyGas z f).s.lampLink = e.s.lampLink := rfl
@[simp] theorem modifyGas_budget (z : Nat) (f : ZoneGas → ZoneGas) :
    (e.modifyGas z f).s.budget = e.s.budget := rfl
@[simp] theorem modifyGas_path (z : Nat) (f : ZoneGas → ZoneGas) :
    (e.modifyGas z f).s.path = e.s.path := rfl
@[simp] theorem modifyGas_notices (z : Nat) (f : ZoneGas → ZoneGas) :
    (e.modifyGas z f).s.notices = e.s.notices := rfl
@[simp] theorem modifyGas_runner (z : Nat) (f : ZoneGas → ZoneGas) :
    (e.modifyGas z f).s.runner = e.s.runner := rfl
@[simp] theorem modifyGas_mem (z : Nat) (f : ZoneGas → ZoneGas) :
    (e.modifyGas z f).s.mem = e.s.mem := rfl
@[simp] theorem modifyGas_ev_marks (z : Nat) (f : ZoneGas → ZoneGas) : (e.modifyGas z f).marks = e.marks := rfl
@[simp] theorem modifyGas_ev_strings (z : Nat) (f : ZoneGas → ZoneGas) : (e.modifyGas z f).strings = e.strings := rfl
@[simp] theorem modifyGas_ev_groups (z : Nat) (f : ZoneGas → ZoneGas) : (e.modifyGas z f).groups = e.groups := rfl
@[simp] theorem modifyGas_ev_pass (z : Nat) (f : ZoneGas → ZoneGas) : (e.modifyGas z f).pass = e.pass := rfl

/-! ### modifyGroup -/

@[simp] theorem modifyGroup_pending (g : Nat) (f : Group → Group) :
    (e.modifyGroup g f).s.pending = e.s.pending := rfl
@[simp] theorem modifyGroup_loader (g : Nat) (f : Group → Group) :
    (e.modifyGroup g f).s.loader = e.s.loader := rfl
@[simp] theorem modifyGroup_plant (g : Nat) (f : Group → Group) :
    (e.modifyGroup g f).s.plant = e.s.plant := rfl
@[simp] theorem modifyGroup_zones (g : Nat) (f : Group → Group) :
    (e.modifyGroup g f).s.zones = e.s.zones := rfl
@[simp] theorem modifyGroup_bays (g : Nat) (f : Group → Group) :
    (e.modifyGroup g f).s.bays = e.s.bays := rfl
@[simp] theorem modifyGroup_holds (g : Nat) (f : Group → Group) :
    (e.modifyGroup g f).s.holds = e.s.holds := rfl
@[simp] theorem modifyGroup_stray (g : Nat) (f : Group → Group) :
    (e.modifyGroup g f).s.stray = e.s.stray := rfl
@[simp] theorem modifyGroup_bayLink (g : Nat) (f : Group → Group) :
    (e.modifyGroup g f).s.bayLink = e.s.bayLink := rfl
@[simp] theorem modifyGroup_points (g : Nat) (f : Group → Group) :
    (e.modifyGroup g f).s.points = e.s.points := rfl
@[simp] theorem modifyGroup_pool (g : Nat) (f : Group → Group) :
    (e.modifyGroup g f).s.pool = e.s.pool := rfl
@[simp] theorem modifyGroup_sensors (g : Nat) (f : Group → Group) :
    (e.modifyGroup g f).s.sensors = e.s.sensors := rfl
@[simp] theorem modifyGroup_gas (g : Nat) (f : Group → Group) :
    (e.modifyGroup g f).s.gas = e.s.gas := rfl
@[simp] theorem modifyGroup_airLink (g : Nat) (f : Group → Group) :
    (e.modifyGroup g f).s.airLink = e.s.airLink := rfl
@[simp] theorem modifyGroup_groups (g : Nat) (f : Group → Group) :
    (e.modifyGroup g f).s.groups = e.s.groups.modify g f := rfl
@[simp] theorem modifyGroup_lines (g : Nat) (f : Group → Group) :
    (e.modifyGroup g f).s.lines = e.s.lines := rfl
@[simp] theorem modifyGroup_strings (g : Nat) (f : Group → Group) :
    (e.modifyGroup g f).s.strings = e.s.strings := rfl
@[simp] theorem modifyGroup_allFull (g : Nat) (f : Group → Group) :
    (e.modifyGroup g f).s.allFull = e.s.allFull := rfl
@[simp] theorem modifyGroup_lampLink (g : Nat) (f : Group → Group) :
    (e.modifyGroup g f).s.lampLink = e.s.lampLink := rfl
@[simp] theorem modifyGroup_budget (g : Nat) (f : Group → Group) :
    (e.modifyGroup g f).s.budget = e.s.budget := rfl
@[simp] theorem modifyGroup_path (g : Nat) (f : Group → Group) :
    (e.modifyGroup g f).s.path = e.s.path := rfl
@[simp] theorem modifyGroup_notices (g : Nat) (f : Group → Group) :
    (e.modifyGroup g f).s.notices = e.s.notices := rfl
@[simp] theorem modifyGroup_runner (g : Nat) (f : Group → Group) :
    (e.modifyGroup g f).s.runner = e.s.runner := rfl
@[simp] theorem modifyGroup_mem (g : Nat) (f : Group → Group) :
    (e.modifyGroup g f).s.mem = e.s.mem := rfl
@[simp] theorem modifyGroup_ev_marks (g : Nat) (f : Group → Group) : (e.modifyGroup g f).marks = e.marks := rfl
@[simp] theorem modifyGroup_ev_strings (g : Nat) (f : Group → Group) : (e.modifyGroup g f).strings = e.strings := rfl
@[simp] theorem modifyGroup_ev_groups (g : Nat) (f : Group → Group) : (e.modifyGroup g f).groups = e.groups := rfl
@[simp] theorem modifyGroup_ev_pass (g : Nat) (f : Group → Group) : (e.modifyGroup g f).pass = e.pass := rfl

/-! ### modifyString -/

@[simp] theorem modifyString_pending (k : Nat) (f : LampString → LampString) :
    (e.modifyString k f).s.pending = e.s.pending := rfl
@[simp] theorem modifyString_loader (k : Nat) (f : LampString → LampString) :
    (e.modifyString k f).s.loader = e.s.loader := rfl
@[simp] theorem modifyString_plant (k : Nat) (f : LampString → LampString) :
    (e.modifyString k f).s.plant = e.s.plant := rfl
@[simp] theorem modifyString_zones (k : Nat) (f : LampString → LampString) :
    (e.modifyString k f).s.zones = e.s.zones := rfl
@[simp] theorem modifyString_bays (k : Nat) (f : LampString → LampString) :
    (e.modifyString k f).s.bays = e.s.bays := rfl
@[simp] theorem modifyString_holds (k : Nat) (f : LampString → LampString) :
    (e.modifyString k f).s.holds = e.s.holds := rfl
@[simp] theorem modifyString_stray (k : Nat) (f : LampString → LampString) :
    (e.modifyString k f).s.stray = e.s.stray := rfl
@[simp] theorem modifyString_bayLink (k : Nat) (f : LampString → LampString) :
    (e.modifyString k f).s.bayLink = e.s.bayLink := rfl
@[simp] theorem modifyString_points (k : Nat) (f : LampString → LampString) :
    (e.modifyString k f).s.points = e.s.points := rfl
@[simp] theorem modifyString_pool (k : Nat) (f : LampString → LampString) :
    (e.modifyString k f).s.pool = e.s.pool := rfl
@[simp] theorem modifyString_sensors (k : Nat) (f : LampString → LampString) :
    (e.modifyString k f).s.sensors = e.s.sensors := rfl
@[simp] theorem modifyString_gas (k : Nat) (f : LampString → LampString) :
    (e.modifyString k f).s.gas = e.s.gas := rfl
@[simp] theorem modifyString_airLink (k : Nat) (f : LampString → LampString) :
    (e.modifyString k f).s.airLink = e.s.airLink := rfl
@[simp] theorem modifyString_groups (k : Nat) (f : LampString → LampString) :
    (e.modifyString k f).s.groups = e.s.groups := rfl
@[simp] theorem modifyString_lines (k : Nat) (f : LampString → LampString) :
    (e.modifyString k f).s.lines = e.s.lines := rfl
@[simp] theorem modifyString_strings (k : Nat) (f : LampString → LampString) :
    (e.modifyString k f).s.strings = e.s.strings.modify k f := rfl
@[simp] theorem modifyString_allFull (k : Nat) (f : LampString → LampString) :
    (e.modifyString k f).s.allFull = e.s.allFull := rfl
@[simp] theorem modifyString_lampLink (k : Nat) (f : LampString → LampString) :
    (e.modifyString k f).s.lampLink = e.s.lampLink := rfl
@[simp] theorem modifyString_budget (k : Nat) (f : LampString → LampString) :
    (e.modifyString k f).s.budget = e.s.budget := rfl
@[simp] theorem modifyString_path (k : Nat) (f : LampString → LampString) :
    (e.modifyString k f).s.path = e.s.path := rfl
@[simp] theorem modifyString_notices (k : Nat) (f : LampString → LampString) :
    (e.modifyString k f).s.notices = e.s.notices := rfl
@[simp] theorem modifyString_runner (k : Nat) (f : LampString → LampString) :
    (e.modifyString k f).s.runner = e.s.runner := rfl
@[simp] theorem modifyString_mem (k : Nat) (f : LampString → LampString) :
    (e.modifyString k f).s.mem = e.s.mem := rfl
@[simp] theorem modifyString_ev_marks (k : Nat) (f : LampString → LampString) : (e.modifyString k f).marks = e.marks := rfl
@[simp] theorem modifyString_ev_strings (k : Nat) (f : LampString → LampString) : (e.modifyString k f).strings = e.strings := rfl
@[simp] theorem modifyString_ev_groups (k : Nat) (f : LampString → LampString) : (e.modifyString k f).groups = e.groups := rfl
@[simp] theorem modifyString_ev_pass (k : Nat) (f : LampString → LampString) : (e.modifyString k f).pass = e.pass := rfl

/-! ### modifyLine -/

@[simp] theorem modifyLine_pending (l : DriveLine) (f : LineRecord → LineRecord) :
    (e.modifyLine l f).s.pending = e.s.pending := rfl
@[simp] theorem modifyLine_loader (l : DriveLine) (f : LineRecord → LineRecord) :
    (e.modifyLine l f).s.loader = e.s.loader := rfl
@[simp] theorem modifyLine_plant (l : DriveLine) (f : LineRecord → LineRecord) :
    (e.modifyLine l f).s.plant = e.s.plant := rfl
@[simp] theorem modifyLine_zones (l : DriveLine) (f : LineRecord → LineRecord) :
    (e.modifyLine l f).s.zones = e.s.zones := rfl
@[simp] theorem modifyLine_bays (l : DriveLine) (f : LineRecord → LineRecord) :
    (e.modifyLine l f).s.bays = e.s.bays := rfl
@[simp] theorem modifyLine_holds (l : DriveLine) (f : LineRecord → LineRecord) :
    (e.modifyLine l f).s.holds = e.s.holds := rfl
@[simp] theorem modifyLine_stray (l : DriveLine) (f : LineRecord → LineRecord) :
    (e.modifyLine l f).s.stray = e.s.stray := rfl
@[simp] theorem modifyLine_bayLink (l : DriveLine) (f : LineRecord → LineRecord) :
    (e.modifyLine l f).s.bayLink = e.s.bayLink := rfl
@[simp] theorem modifyLine_points (l : DriveLine) (f : LineRecord → LineRecord) :
    (e.modifyLine l f).s.points = e.s.points := rfl
@[simp] theorem modifyLine_pool (l : DriveLine) (f : LineRecord → LineRecord) :
    (e.modifyLine l f).s.pool = e.s.pool := rfl
@[simp] theorem modifyLine_sensors (l : DriveLine) (f : LineRecord → LineRecord) :
    (e.modifyLine l f).s.sensors = e.s.sensors := rfl
@[simp] theorem modifyLine_gas (l : DriveLine) (f : LineRecord → LineRecord) :
    (e.modifyLine l f).s.gas = e.s.gas := rfl
@[simp] theorem modifyLine_airLink (l : DriveLine) (f : LineRecord → LineRecord) :
    (e.modifyLine l f).s.airLink = e.s.airLink := rfl
@[simp] theorem modifyLine_groups (l : DriveLine) (f : LineRecord → LineRecord) :
    (e.modifyLine l f).s.groups = e.s.groups := rfl
@[simp] theorem modifyLine_lines (l : DriveLine) (f : LineRecord → LineRecord) :
    (e.modifyLine l f).s.lines = e.s.lines.set l (f (e.s.lines.get l)) := rfl
@[simp] theorem modifyLine_strings (l : DriveLine) (f : LineRecord → LineRecord) :
    (e.modifyLine l f).s.strings = e.s.strings := rfl
@[simp] theorem modifyLine_allFull (l : DriveLine) (f : LineRecord → LineRecord) :
    (e.modifyLine l f).s.allFull = e.s.allFull := rfl
@[simp] theorem modifyLine_lampLink (l : DriveLine) (f : LineRecord → LineRecord) :
    (e.modifyLine l f).s.lampLink = e.s.lampLink := rfl
@[simp] theorem modifyLine_budget (l : DriveLine) (f : LineRecord → LineRecord) :
    (e.modifyLine l f).s.budget = e.s.budget := rfl
@[simp] theorem modifyLine_path (l : DriveLine) (f : LineRecord → LineRecord) :
    (e.modifyLine l f).s.path = e.s.path := rfl
@[simp] theorem modifyLine_notices (l : DriveLine) (f : LineRecord → LineRecord) :
    (e.modifyLine l f).s.notices = e.s.notices := rfl
@[simp] theorem modifyLine_runner (l : DriveLine) (f : LineRecord → LineRecord) :
    (e.modifyLine l f).s.runner = e.s.runner := rfl
@[simp] theorem modifyLine_mem (l : DriveLine) (f : LineRecord → LineRecord) :
    (e.modifyLine l f).s.mem = e.s.mem := rfl
@[simp] theorem modifyLine_ev_marks (l : DriveLine) (f : LineRecord → LineRecord) : (e.modifyLine l f).marks = e.marks := rfl
@[simp] theorem modifyLine_ev_strings (l : DriveLine) (f : LineRecord → LineRecord) : (e.modifyLine l f).strings = e.strings := rfl
@[simp] theorem modifyLine_ev_groups (l : DriveLine) (f : LineRecord → LineRecord) : (e.modifyLine l f).groups = e.groups := rfl
@[simp] theorem modifyLine_ev_pass (l : DriveLine) (f : LineRecord → LineRecord) : (e.modifyLine l f).pass = e.pass := rfl

/-! ### modifyBudget -/

@[simp] theorem modifyBudget_pending (f : Budget → Budget) :
    (e.modifyBudget f).s.pending = e.s.pending := rfl
@[simp] theorem modifyBudget_loader (f : Budget → Budget) :
    (e.modifyBudget f).s.loader = e.s.loader := rfl
@[simp] theorem modifyBudget_plant (f : Budget → Budget) :
    (e.modifyBudget f).s.plant = e.s.plant := rfl
@[simp] theorem modifyBudget_zones (f : Budget → Budget) :
    (e.modifyBudget f).s.zones = e.s.zones := rfl
@[simp] theorem modifyBudget_bays (f : Budget → Budget) :
    (e.modifyBudget f).s.bays = e.s.bays := rfl
@[simp] theorem modifyBudget_holds (f : Budget → Budget) :
    (e.modifyBudget f).s.holds = e.s.holds := rfl
@[simp] theorem modifyBudget_stray (f : Budget → Budget) :
    (e.modifyBudget f).s.stray = e.s.stray := rfl
@[simp] theorem modifyBudget_bayLink (f : Budget → Budget) :
    (e.modifyBudget f).s.bayLink = e.s.bayLink := rfl
@[simp] theorem modifyBudget_points (f : Budget → Budget) :
    (e.modifyBudget f).s.points = e.s.points := rfl
@[simp] theorem modifyBudget_pool (f : Budget → Budget) :
    (e.modifyBudget f).s.pool = e.s.pool := rfl
@[simp] theorem modifyBudget_sensors (f : Budget → Budget) :
    (e.modifyBudget f).s.sensors = e.s.sensors := rfl
@[simp] theorem modifyBudget_gas (f : Budget → Budget) :
    (e.modifyBudget f).s.gas = e.s.gas := rfl
@[simp] theorem modifyBudget_airLink (f : Budget → Budget) :
    (e.modifyBudget f).s.airLink = e.s.airLink := rfl
@[simp] theorem modifyBudget_groups (f : Budget → Budget) :
    (e.modifyBudget f).s.groups = e.s.groups := rfl
@[simp] theorem modifyBudget_lines (f : Budget → Budget) :
    (e.modifyBudget f).s.lines = e.s.lines := rfl
@[simp] theorem modifyBudget_strings (f : Budget → Budget) :
    (e.modifyBudget f).s.strings = e.s.strings := rfl
@[simp] theorem modifyBudget_allFull (f : Budget → Budget) :
    (e.modifyBudget f).s.allFull = e.s.allFull := rfl
@[simp] theorem modifyBudget_lampLink (f : Budget → Budget) :
    (e.modifyBudget f).s.lampLink = e.s.lampLink := rfl
@[simp] theorem modifyBudget_budget (f : Budget → Budget) :
    (e.modifyBudget f).s.budget = f e.s.budget := rfl
@[simp] theorem modifyBudget_path (f : Budget → Budget) :
    (e.modifyBudget f).s.path = e.s.path := rfl
@[simp] theorem modifyBudget_notices (f : Budget → Budget) :
    (e.modifyBudget f).s.notices = e.s.notices := rfl
@[simp] theorem modifyBudget_runner (f : Budget → Budget) :
    (e.modifyBudget f).s.runner = e.s.runner := rfl
@[simp] theorem modifyBudget_mem (f : Budget → Budget) :
    (e.modifyBudget f).s.mem = e.s.mem := rfl
@[simp] theorem modifyBudget_ev_marks (f : Budget → Budget) : (e.modifyBudget f).marks = e.marks := rfl
@[simp] theorem modifyBudget_ev_strings (f : Budget → Budget) : (e.modifyBudget f).strings = e.strings := rfl
@[simp] theorem modifyBudget_ev_groups (f : Budget → Budget) : (e.modifyBudget f).groups = e.groups := rfl
@[simp] theorem modifyBudget_ev_pass (f : Budget → Budget) : (e.modifyBudget f).pass = e.pass := rfl

/-! ### modifyPath -/

@[simp] theorem modifyPath_pending (f : MemoryPath → MemoryPath) :
    (e.modifyPath f).s.pending = e.s.pending := rfl
@[simp] theorem modifyPath_loader (f : MemoryPath → MemoryPath) :
    (e.modifyPath f).s.loader = e.s.loader := rfl
@[simp] theorem modifyPath_plant (f : MemoryPath → MemoryPath) :
    (e.modifyPath f).s.plant = e.s.plant := rfl
@[simp] theorem modifyPath_zones (f : MemoryPath → MemoryPath) :
    (e.modifyPath f).s.zones = e.s.zones := rfl
@[simp] theorem modifyPath_bays (f : MemoryPath → MemoryPath) :
    (e.modifyPath f).s.bays = e.s.bays := rfl
@[simp] theorem modifyPath_holds (f : MemoryPath → MemoryPath) :
    (e.modifyPath f).s.holds = e.s.holds := rfl
@[simp] theorem modifyPath_stray (f : MemoryPath → MemoryPath) :
    (e.modifyPath f).s.stray = e.s.stray := rfl
@[simp] theorem modifyPath_bayLink (f : MemoryPath → MemoryPath) :
    (e.modifyPath f).s.bayLink = e.s.bayLink := rfl
@[simp] theorem modifyPath_points (f : MemoryPath → MemoryPath) :
    (e.modifyPath f).s.points = e.s.points := rfl
@[simp] theorem modifyPath_pool (f : MemoryPath → MemoryPath) :
    (e.modifyPath f).s.pool = e.s.pool := rfl
@[simp] theorem modifyPath_sensors (f : MemoryPath → MemoryPath) :
    (e.modifyPath f).s.sensors = e.s.sensors := rfl
@[simp] theorem modifyPath_gas (f : MemoryPath → MemoryPath) :
    (e.modifyPath f).s.gas = e.s.gas := rfl
@[simp] theorem modifyPath_airLink (f : MemoryPath → MemoryPath) :
    (e.modifyPath f).s.airLink = e.s.airLink := rfl
@[simp] theorem modifyPath_groups (f : MemoryPath → MemoryPath) :
    (e.modifyPath f).s.groups = e.s.groups := rfl
@[simp] theorem modifyPath_lines (f : MemoryPath → MemoryPath) :
    (e.modifyPath f).s.lines = e.s.lines := rfl
@[simp] theorem modifyPath_strings (f : MemoryPath → MemoryPath) :
    (e.modifyPath f).s.strings = e.s.strings := rfl
@[simp] theorem modifyPath_allFull (f : MemoryPath → MemoryPath) :
    (e.modifyPath f).s.allFull = e.s.allFull := rfl
@[simp] theorem modifyPath_lampLink (f : MemoryPath → MemoryPath) :
    (e.modifyPath f).s.lampLink = e.s.lampLink := rfl
@[simp] theorem modifyPath_budget (f : MemoryPath → MemoryPath) :
    (e.modifyPath f).s.budget = e.s.budget := rfl
@[simp] theorem modifyPath_path (f : MemoryPath → MemoryPath) :
    (e.modifyPath f).s.path = f e.s.path := rfl
@[simp] theorem modifyPath_notices (f : MemoryPath → MemoryPath) :
    (e.modifyPath f).s.notices = e.s.notices := rfl
@[simp] theorem modifyPath_runner (f : MemoryPath → MemoryPath) :
    (e.modifyPath f).s.runner = e.s.runner := rfl
@[simp] theorem modifyPath_mem (f : MemoryPath → MemoryPath) :
    (e.modifyPath f).s.mem = e.s.mem := rfl
@[simp] theorem modifyPath_ev_marks (f : MemoryPath → MemoryPath) : (e.modifyPath f).marks = e.marks := rfl
@[simp] theorem modifyPath_ev_strings (f : MemoryPath → MemoryPath) : (e.modifyPath f).strings = e.strings := rfl
@[simp] theorem modifyPath_ev_groups (f : MemoryPath → MemoryPath) : (e.modifyPath f).groups = e.groups := rfl
@[simp] theorem modifyPath_ev_pass (f : MemoryPath → MemoryPath) : (e.modifyPath f).pass = e.pass := rfl

/-! ### modifyNotices -/

@[simp] theorem modifyNotices_pending (f : Notices → Notices) :
    (e.modifyNotices f).s.pending = e.s.pending := rfl
@[simp] theorem modifyNotices_loader (f : Notices → Notices) :
    (e.modifyNotices f).s.loader = e.s.loader := rfl
@[simp] theorem modifyNotices_plant (f : Notices → Notices) :
    (e.modifyNotices f).s.plant = e.s.plant := rfl
@[simp] theorem modifyNotices_zones (f : Notices → Notices) :
    (e.modifyNotices f).s.zones = e.s.zones := rfl
@[simp] theorem modifyNotices_bays (f : Notices → Notices) :
    (e.modifyNotices f).s.bays = e.s.bays := rfl
@[simp] theorem modifyNotices_holds (f : Notices → Notices) :
    (e.modifyNotices f).s.holds = e.s.holds := rfl
@[simp] theorem modifyNotices_stray (f : Notices → Notices) :
    (e.modifyNotices f).s.stray = e.s.stray := rfl
@[simp] theorem modifyNotices_bayLink (f : Notices → Notices) :
    (e.modifyNotices f).s.bayLink = e.s.bayLink := rfl
@[simp] theorem modifyNotices_points (f : Notices → Notices) :
    (e.modifyNotices f).s.points = e.s.points := rfl
@[simp] theorem modifyNotices_pool (f : Notices → Notices) :
    (e.modifyNotices f).s.pool = e.s.pool := rfl
@[simp] theorem modifyNotices_sensors (f : Notices → Notices) :
    (e.modifyNotices f).s.sensors = e.s.sensors := rfl
@[simp] theorem modifyNotices_gas (f : Notices → Notices) :
    (e.modifyNotices f).s.gas = e.s.gas := rfl
@[simp] theorem modifyNotices_airLink (f : Notices → Notices) :
    (e.modifyNotices f).s.airLink = e.s.airLink := rfl
@[simp] theorem modifyNotices_groups (f : Notices → Notices) :
    (e.modifyNotices f).s.groups = e.s.groups := rfl
@[simp] theorem modifyNotices_lines (f : Notices → Notices) :
    (e.modifyNotices f).s.lines = e.s.lines := rfl
@[simp] theorem modifyNotices_strings (f : Notices → Notices) :
    (e.modifyNotices f).s.strings = e.s.strings := rfl
@[simp] theorem modifyNotices_allFull (f : Notices → Notices) :
    (e.modifyNotices f).s.allFull = e.s.allFull := rfl
@[simp] theorem modifyNotices_lampLink (f : Notices → Notices) :
    (e.modifyNotices f).s.lampLink = e.s.lampLink := rfl
@[simp] theorem modifyNotices_budget (f : Notices → Notices) :
    (e.modifyNotices f).s.budget = e.s.budget := rfl
@[simp] theorem modifyNotices_path (f : Notices → Notices) :
    (e.modifyNotices f).s.path = e.s.path := rfl
@[simp] theorem modifyNotices_notices (f : Notices → Notices) :
    (e.modifyNotices f).s.notices = f e.s.notices := rfl
@[simp] theorem modifyNotices_runner (f : Notices → Notices) :
    (e.modifyNotices f).s.runner = e.s.runner := rfl
@[simp] theorem modifyNotices_mem (f : Notices → Notices) :
    (e.modifyNotices f).s.mem = e.s.mem := rfl
@[simp] theorem modifyNotices_ev_marks (f : Notices → Notices) : (e.modifyNotices f).marks = e.marks := rfl
@[simp] theorem modifyNotices_ev_strings (f : Notices → Notices) : (e.modifyNotices f).strings = e.strings := rfl
@[simp] theorem modifyNotices_ev_groups (f : Notices → Notices) : (e.modifyNotices f).groups = e.groups := rfl
@[simp] theorem modifyNotices_ev_pass (f : Notices → Notices) : (e.modifyNotices f).pass = e.pass := rfl

/-! ### modifyRunner -/

@[simp] theorem modifyRunner_pending (f : Runner → Runner) :
    (e.modifyRunner f).s.pending = e.s.pending := rfl
@[simp] theorem modifyRunner_loader (f : Runner → Runner) :
    (e.modifyRunner f).s.loader = e.s.loader := rfl
@[simp] theorem modifyRunner_plant (f : Runner → Runner) :
    (e.modifyRunner f).s.plant = e.s.plant := rfl
@[simp] theorem modifyRunner_zones (f : Runner → Runner) :
    (e.modifyRunner f).s.zones = e.s.zones := rfl
@[simp] theorem modifyRunner_bays (f : Runner → Runner) :
    (e.modifyRunner f).s.bays = e.s.bays := rfl
@[simp] theorem modifyRunner_holds (f : Runner → Runner) :
    (e.modifyRunner f).s.holds = e.s.holds := rfl
@[simp] theorem modifyRunner_stray (f : Runner → Runner) :
    (e.modifyRunner f).s.stray = e.s.stray := rfl
@[simp] theorem modifyRunner_bayLink (f : Runner → Runner) :
    (e.modifyRunner f).s.bayLink = e.s.bayLink := rfl
@[simp] theorem modifyRunner_points (f : Runner → Runner) :
    (e.modifyRunner f).s.points = e.s.points := rfl
@[simp] theorem modifyRunner_pool (f : Runner → Runner) :
    (e.modifyRunner f).s.pool = e.s.pool := rfl
@[simp] theorem modifyRunner_sensors (f : Runner → Runner) :
    (e.modifyRunner f).s.sensors = e.s.sensors := rfl
@[simp] theorem modifyRunner_gas (f : Runner → Runner) :
    (e.modifyRunner f).s.gas = e.s.gas := rfl
@[simp] theorem modifyRunner_airLink (f : Runner → Runner) :
    (e.modifyRunner f).s.airLink = e.s.airLink := rfl
@[simp] theorem modifyRunner_groups (f : Runner → Runner) :
    (e.modifyRunner f).s.groups = e.s.groups := rfl
@[simp] theorem modifyRunner_lines (f : Runner → Runner) :
    (e.modifyRunner f).s.lines = e.s.lines := rfl
@[simp] theorem modifyRunner_strings (f : Runner → Runner) :
    (e.modifyRunner f).s.strings = e.s.strings := rfl
@[simp] theorem modifyRunner_allFull (f : Runner → Runner) :
    (e.modifyRunner f).s.allFull = e.s.allFull := rfl
@[simp] theorem modifyRunner_lampLink (f : Runner → Runner) :
    (e.modifyRunner f).s.lampLink = e.s.lampLink := rfl
@[simp] theorem modifyRunner_budget (f : Runner → Runner) :
    (e.modifyRunner f).s.budget = e.s.budget := rfl
@[simp] theorem modifyRunner_path (f : Runner → Runner) :
    (e.modifyRunner f).s.path = e.s.path := rfl
@[simp] theorem modifyRunner_notices (f : Runner → Runner) :
    (e.modifyRunner f).s.notices = e.s.notices := rfl
@[simp] theorem modifyRunner_runner (f : Runner → Runner) :
    (e.modifyRunner f).s.runner = f e.s.runner := rfl
@[simp] theorem modifyRunner_mem (f : Runner → Runner) :
    (e.modifyRunner f).s.mem = e.s.mem := rfl
@[simp] theorem modifyRunner_ev_marks (f : Runner → Runner) : (e.modifyRunner f).marks = e.marks := rfl
@[simp] theorem modifyRunner_ev_strings (f : Runner → Runner) : (e.modifyRunner f).strings = e.strings := rfl
@[simp] theorem modifyRunner_ev_groups (f : Runner → Runner) : (e.modifyRunner f).groups = e.groups := rfl
@[simp] theorem modifyRunner_ev_pass (f : Runner → Runner) : (e.modifyRunner f).pass = e.pass := rfl

/-! ### modifyLamp -/

@[simp] theorem modifyLamp_pending (f : LampLink → LampLink) :
    (e.modifyLamp f).s.pending = e.s.pending := rfl
@[simp] theorem modifyLamp_loader (f : LampLink → LampLink) :
    (e.modifyLamp f).s.loader = e.s.loader := rfl
@[simp] theorem modifyLamp_plant (f : LampLink → LampLink) :
    (e.modifyLamp f).s.plant = e.s.plant := rfl
@[simp] theorem modifyLamp_zones (f : LampLink → LampLink) :
    (e.modifyLamp f).s.zones = e.s.zones := rfl
@[simp] theorem modifyLamp_bays (f : LampLink → LampLink) :
    (e.modifyLamp f).s.bays = e.s.bays := rfl
@[simp] theorem modifyLamp_holds (f : LampLink → LampLink) :
    (e.modifyLamp f).s.holds = e.s.holds := rfl
@[simp] theorem modifyLamp_stray (f : LampLink → LampLink) :
    (e.modifyLamp f).s.stray = e.s.stray := rfl
@[simp] theorem modifyLamp_bayLink (f : LampLink → LampLink) :
    (e.modifyLamp f).s.bayLink = e.s.bayLink := rfl
@[simp] theorem modifyLamp_points (f : LampLink → LampLink) :
    (e.modifyLamp f).s.points = e.s.points := rfl
@[simp] theorem modifyLamp_pool (f : LampLink → LampLink) :
    (e.modifyLamp f).s.pool = e.s.pool := rfl
@[simp] theorem modifyLamp_sensors (f : LampLink → LampLink) :
    (e.modifyLamp f).s.sensors = e.s.sensors := rfl
@[simp] theorem modifyLamp_gas (f : LampLink → LampLink) :
    (e.modifyLamp f).s.gas = e.s.gas := rfl
@[simp] theorem modifyLamp_airLink (f : LampLink → LampLink) :
    (e.modifyLamp f).s.airLink = e.s.airLink := rfl
@[simp] theorem modifyLamp_groups (f : LampLink → LampLink) :
    (e.modifyLamp f).s.groups = e.s.groups := rfl
@[simp] theorem modifyLamp_lines (f : LampLink → LampLink) :
    (e.modifyLamp f).s.lines = e.s.lines := rfl
@[simp] theorem modifyLamp_strings (f : LampLink → LampLink) :
    (e.modifyLamp f).s.strings = e.s.strings := rfl
@[simp] theorem modifyLamp_allFull (f : LampLink → LampLink) :
    (e.modifyLamp f).s.allFull = e.s.allFull := rfl
@[simp] theorem modifyLamp_lampLink (f : LampLink → LampLink) :
    (e.modifyLamp f).s.lampLink = f e.s.lampLink := rfl
@[simp] theorem modifyLamp_budget (f : LampLink → LampLink) :
    (e.modifyLamp f).s.budget = e.s.budget := rfl
@[simp] theorem modifyLamp_path (f : LampLink → LampLink) :
    (e.modifyLamp f).s.path = e.s.path := rfl
@[simp] theorem modifyLamp_notices (f : LampLink → LampLink) :
    (e.modifyLamp f).s.notices = e.s.notices := rfl
@[simp] theorem modifyLamp_runner (f : LampLink → LampLink) :
    (e.modifyLamp f).s.runner = e.s.runner := rfl
@[simp] theorem modifyLamp_mem (f : LampLink → LampLink) :
    (e.modifyLamp f).s.mem = e.s.mem := rfl
@[simp] theorem modifyLamp_ev_marks (f : LampLink → LampLink) : (e.modifyLamp f).marks = e.marks := rfl
@[simp] theorem modifyLamp_ev_strings (f : LampLink → LampLink) : (e.modifyLamp f).strings = e.strings := rfl
@[simp] theorem modifyLamp_ev_groups (f : LampLink → LampLink) : (e.modifyLamp f).groups = e.groups := rfl
@[simp] theorem modifyLamp_ev_pass (f : LampLink → LampLink) : (e.modifyLamp f).pass = e.pass := rfl

/-! ### modifyBayLink -/

@[simp] theorem modifyBayLink_pending (f : BayLink → BayLink) :
    (e.modifyBayLink f).s.pending = e.s.pending := rfl
@[simp] theorem modifyBayLink_loader (f : BayLink → BayLink) :
    (e.modifyBayLink f).s.loader = e.s.loader := rfl
@[simp] theorem modifyBayLink_plant (f : BayLink → BayLink) :
    (e.modifyBayLink f).s.plant = e.s.plant := rfl
@[simp] theorem modifyBayLink_zones (f : BayLink → BayLink) :
    (e.modifyBayLink f).s.zones = e.s.zones := rfl
@[simp] theorem modifyBayLink_bays (f : BayLink → BayLink) :
    (e.modifyBayLink f).s.bays = e.s.bays := rfl
@[simp] theorem modifyBayLink_holds (f : BayLink → BayLink) :
    (e.modifyBayLink f).s.holds = e.s.holds := rfl
@[simp] theorem modifyBayLink_stray (f : BayLink → BayLink) :
    (e.modifyBayLink f).s.stray = e.s.stray := rfl
@[simp] theorem modifyBayLink_bayLink (f : BayLink → BayLink) :
    (e.modifyBayLink f).s.bayLink = f e.s.bayLink := rfl
@[simp] theorem modifyBayLink_points (f : BayLink → BayLink) :
    (e.modifyBayLink f).s.points = e.s.points := rfl
@[simp] theorem modifyBayLink_pool (f : BayLink → BayLink) :
    (e.modifyBayLink f).s.pool = e.s.pool := rfl
@[simp] theorem modifyBayLink_sensors (f : BayLink → BayLink) :
    (e.modifyBayLink f).s.sensors = e.s.sensors := rfl
@[simp] theorem modifyBayLink_gas (f : BayLink → BayLink) :
    (e.modifyBayLink f).s.gas = e.s.gas := rfl
@[simp] theorem modifyBayLink_airLink (f : BayLink → BayLink) :
    (e.modifyBayLink f).s.airLink = e.s.airLink := rfl
@[simp] theorem modifyBayLink_groups (f : BayLink → BayLink) :
    (e.modifyBayLink f).s.groups = e.s.groups := rfl
@[simp] theorem modifyBayLink_lines (f : BayLink → BayLink) :
    (e.modifyBayLink f).s.lines = e.s.lines := rfl
@[simp] theorem modifyBayLink_strings (f : BayLink → BayLink) :
    (e.modifyBayLink f).s.strings = e.s.strings := rfl
@[simp] theorem modifyBayLink_allFull (f : BayLink → BayLink) :
    (e.modifyBayLink f).s.allFull = e.s.allFull := rfl
@[simp] theorem modifyBayLink_lampLink (f : BayLink → BayLink) :
    (e.modifyBayLink f).s.lampLink = e.s.lampLink := rfl
@[simp] theorem modifyBayLink_budget (f : BayLink → BayLink) :
    (e.modifyBayLink f).s.budget = e.s.budget := rfl
@[simp] theorem modifyBayLink_path (f : BayLink → BayLink) :
    (e.modifyBayLink f).s.path = e.s.path := rfl
@[simp] theorem modifyBayLink_notices (f : BayLink → BayLink) :
    (e.modifyBayLink f).s.notices = e.s.notices := rfl
@[simp] theorem modifyBayLink_runner (f : BayLink → BayLink) :
    (e.modifyBayLink f).s.runner = e.s.runner := rfl
@[simp] theorem modifyBayLink_mem (f : BayLink → BayLink) :
    (e.modifyBayLink f).s.mem = e.s.mem := rfl
@[simp] theorem modifyBayLink_ev_marks (f : BayLink → BayLink) : (e.modifyBayLink f).marks = e.marks := rfl
@[simp] theorem modifyBayLink_ev_strings (f : BayLink → BayLink) : (e.modifyBayLink f).strings = e.strings := rfl
@[simp] theorem modifyBayLink_ev_groups (f : BayLink → BayLink) : (e.modifyBayLink f).groups = e.groups := rfl
@[simp] theorem modifyBayLink_ev_pass (f : BayLink → BayLink) : (e.modifyBayLink f).pass = e.pass := rfl

/-! ### modifyLoader -/

@[simp] theorem modifyLoader_pending (f : Loader → Loader) :
    (e.modifyLoader f).s.pending = e.s.pending := rfl
@[simp] theorem modifyLoader_loader (f : Loader → Loader) :
    (e.modifyLoader f).s.loader = f e.s.loader := rfl
@[simp] theorem modifyLoader_plant (f : Loader → Loader) :
    (e.modifyLoader f).s.plant = e.s.plant := rfl
@[simp] theorem modifyLoader_zones (f : Loader → Loader) :
    (e.modifyLoader f).s.zones = e.s.zones := rfl
@[simp] theorem modifyLoader_bays (f : Loader → Loader) :
    (e.modifyLoader f).s.bays = e.s.bays := rfl
@[simp] theorem modifyLoader_holds (f : Loader → Loader) :
    (e.modifyLoader f).s.holds = e.s.holds := rfl
@[simp] theorem modifyLoader_stray (f : Loader → Loader) :
    (e.modifyLoader f).s.stray = e.s.stray := rfl
@[simp] theorem modifyLoader_bayLink (f : Loader → Loader) :
    (e.modifyLoader f).s.bayLink = e.s.bayLink := rfl
@[simp] theorem modifyLoader_points (f : Loader → Loader) :
    (e.modifyLoader f).s.points = e.s.points := rfl
@[simp] theorem modifyLoader_pool (f : Loader → Loader) :
    (e.modifyLoader f).s.pool = e.s.pool := rfl
@[simp] theorem modifyLoader_sensors (f : Loader → Loader) :
    (e.modifyLoader f).s.sensors = e.s.sensors := rfl
@[simp] theorem modifyLoader_gas (f : Loader → Loader) :
    (e.modifyLoader f).s.gas = e.s.gas := rfl
@[simp] theorem modifyLoader_airLink (f : Loader → Loader) :
    (e.modifyLoader f).s.airLink = e.s.airLink := rfl
@[simp] theorem modifyLoader_groups (f : Loader → Loader) :
    (e.modifyLoader f).s.groups = e.s.groups := rfl
@[simp] theorem modifyLoader_lines (f : Loader → Loader) :
    (e.modifyLoader f).s.lines = e.s.lines := rfl
@[simp] theorem modifyLoader_strings (f : Loader → Loader) :
    (e.modifyLoader f).s.strings = e.s.strings := rfl
@[simp] theorem modifyLoader_allFull (f : Loader → Loader) :
    (e.modifyLoader f).s.allFull = e.s.allFull := rfl
@[simp] theorem modifyLoader_lampLink (f : Loader → Loader) :
    (e.modifyLoader f).s.lampLink = e.s.lampLink := rfl
@[simp] theorem modifyLoader_budget (f : Loader → Loader) :
    (e.modifyLoader f).s.budget = e.s.budget := rfl
@[simp] theorem modifyLoader_path (f : Loader → Loader) :
    (e.modifyLoader f).s.path = e.s.path := rfl
@[simp] theorem modifyLoader_notices (f : Loader → Loader) :
    (e.modifyLoader f).s.notices = e.s.notices := rfl
@[simp] theorem modifyLoader_runner (f : Loader → Loader) :
    (e.modifyLoader f).s.runner = e.s.runner := rfl
@[simp] theorem modifyLoader_mem (f : Loader → Loader) :
    (e.modifyLoader f).s.mem = e.s.mem := rfl
@[simp] theorem modifyLoader_ev_marks (f : Loader → Loader) : (e.modifyLoader f).marks = e.marks := rfl
@[simp] theorem modifyLoader_ev_strings (f : Loader → Loader) : (e.modifyLoader f).strings = e.strings := rfl
@[simp] theorem modifyLoader_ev_groups (f : Loader → Loader) : (e.modifyLoader f).groups = e.groups := rfl
@[simp] theorem modifyLoader_ev_pass (f : Loader → Loader) : (e.modifyLoader f).pass = e.pass := rfl

/-! ### modifyPlant -/

@[simp] theorem modifyPlant_pending (f : Plant → Plant) :
    (e.modifyPlant f).s.pending = e.s.pending := rfl
@[simp] theorem modifyPlant_loader (f : Plant → Plant) :
    (e.modifyPlant f).s.loader = e.s.loader := rfl
@[simp] theorem modifyPlant_plant (f : Plant → Plant) :
    (e.modifyPlant f).s.plant = f e.s.plant := rfl
@[simp] theorem modifyPlant_zones (f : Plant → Plant) :
    (e.modifyPlant f).s.zones = e.s.zones := rfl
@[simp] theorem modifyPlant_bays (f : Plant → Plant) :
    (e.modifyPlant f).s.bays = e.s.bays := rfl
@[simp] theorem modifyPlant_holds (f : Plant → Plant) :
    (e.modifyPlant f).s.holds = e.s.holds := rfl
@[simp] theorem modifyPlant_stray (f : Plant → Plant) :
    (e.modifyPlant f).s.stray = e.s.stray := rfl
@[simp] theorem modifyPlant_bayLink (f : Plant → Plant) :
    (e.modifyPlant f).s.bayLink = e.s.bayLink := rfl
@[simp] theorem modifyPlant_points (f : Plant → Plant) :
    (e.modifyPlant f).s.points = e.s.points := rfl
@[simp] theorem modifyPlant_pool (f : Plant → Plant) :
    (e.modifyPlant f).s.pool = e.s.pool := rfl
@[simp] theorem modifyPlant_sensors (f : Plant → Plant) :
    (e.modifyPlant f).s.sensors = e.s.sensors := rfl
@[simp] theorem modifyPlant_gas (f : Plant → Plant) :
    (e.modifyPlant f).s.gas = e.s.gas := rfl
@[simp] theorem modifyPlant_airLink (f : Plant → Plant) :
    (e.modifyPlant f).s.airLink = e.s.airLink := rfl
@[simp] theorem modifyPlant_groups (f : Plant → Plant) :
    (e.modifyPlant f).s.groups = e.s.groups := rfl
@[simp] theorem modifyPlant_lines (f : Plant → Plant) :
    (e.modifyPlant f).s.lines = e.s.lines := rfl
@[simp] theorem modifyPlant_strings (f : Plant → Plant) :
    (e.modifyPlant f).s.strings = e.s.strings := rfl
@[simp] theorem modifyPlant_allFull (f : Plant → Plant) :
    (e.modifyPlant f).s.allFull = e.s.allFull := rfl
@[simp] theorem modifyPlant_lampLink (f : Plant → Plant) :
    (e.modifyPlant f).s.lampLink = e.s.lampLink := rfl
@[simp] theorem modifyPlant_budget (f : Plant → Plant) :
    (e.modifyPlant f).s.budget = e.s.budget := rfl
@[simp] theorem modifyPlant_path (f : Plant → Plant) :
    (e.modifyPlant f).s.path = e.s.path := rfl
@[simp] theorem modifyPlant_notices (f : Plant → Plant) :
    (e.modifyPlant f).s.notices = e.s.notices := rfl
@[simp] theorem modifyPlant_runner (f : Plant → Plant) :
    (e.modifyPlant f).s.runner = e.s.runner := rfl
@[simp] theorem modifyPlant_mem (f : Plant → Plant) :
    (e.modifyPlant f).s.mem = e.s.mem := rfl
@[simp] theorem modifyPlant_ev_marks (f : Plant → Plant) : (e.modifyPlant f).marks = e.marks := rfl
@[simp] theorem modifyPlant_ev_strings (f : Plant → Plant) : (e.modifyPlant f).strings = e.strings := rfl
@[simp] theorem modifyPlant_ev_groups (f : Plant → Plant) : (e.modifyPlant f).groups = e.groups := rfl
@[simp] theorem modifyPlant_ev_pass (f : Plant → Plant) : (e.modifyPlant f).pass = e.pass := rfl

/-! ### Marks, touched strings and pending marks -/

@[simp] theorem mark_s (k : SectionKind) (o p : Nat) : (e.mark k o p).s = e.s := rfl
@[simp] theorem markGeneral_s (p : Nat) : (e.markGeneral p).s = e.s := rfl
@[simp] theorem markAll_s (k : SectionKind) (o : Nat) (ps : List Nat) : (e.markAll k o ps).s = e.s := rfl
@[simp] theorem touchString_s (k : Nat) : (e.touchString k).s = e.s := rfl
@[simp] theorem start_s (s : State) : (start s).s = s := rfl
@[simp] theorem start_marks (s : State) : (start s).marks = [] := rfl
@[simp] theorem start_strings (s : State) : (start s).strings = [] := rfl
@[simp] theorem start_groups (s : State) : (start s).groups = [] := rfl
@[simp] theorem start_pass (s : State) : (start s).pass = false := rfl
@[simp] theorem modify_s (f : State → State) : (e.modify f).s = f e.s := rfl
@[simp] theorem modify_ev_marks (f : State → State) : (e.modify f).marks = e.marks := rfl
@[simp] theorem modify_ev_strings (f : State → State) : (e.modify f).strings = e.strings := rfl
@[simp] theorem modify_ev_groups (f : State → State) : (e.modify f).groups = e.groups := rfl
@[simp] theorem modify_ev_pass (f : State → State) : (e.modify f).pass = e.pass := rfl
@[simp] theorem mark_ev_strings (k : SectionKind) (o p : Nat) : (e.mark k o p).strings = e.strings := rfl
@[simp] theorem mark_ev_groups (k : SectionKind) (o p : Nat) : (e.mark k o p).groups = e.groups := rfl
@[simp] theorem mark_ev_pass (k : SectionKind) (o p : Nat) : (e.mark k o p).pass = e.pass := rfl
@[simp] theorem markGeneral_ev_strings (p : Nat) : (e.markGeneral p).strings = e.strings := rfl
@[simp] theorem markGeneral_ev_groups (p : Nat) : (e.markGeneral p).groups = e.groups := rfl
@[simp] theorem markGeneral_ev_pass (p : Nat) : (e.markGeneral p).pass = e.pass := rfl
@[simp] theorem markAll_ev_strings (k : SectionKind) (o : Nat) (ps : List Nat) : (e.markAll k o ps).strings = e.strings := rfl
@[simp] theorem markAll_ev_groups (k : SectionKind) (o : Nat) (ps : List Nat) : (e.markAll k o ps).groups = e.groups := rfl
@[simp] theorem markAll_ev_pass (k : SectionKind) (o : Nat) (ps : List Nat) : (e.markAll k o ps).pass = e.pass := rfl
@[simp] theorem touchString_ev_marks (k : Nat) : (e.touchString k).marks = e.marks := rfl
@[simp] theorem touchString_ev_groups (k : Nat) : (e.touchString k).groups = e.groups := rfl
@[simp] theorem touchString_ev_pass (k : Nat) : (e.touchString k).pass = e.pass := rfl
@[simp] theorem mark_ev_marks (k : SectionKind) (o p : Nat) : (e.mark k o p).marks = ⟨k, o, p⟩ :: e.marks := rfl
@[simp] theorem markGeneral_ev_marks (p : Nat) : (e.markGeneral p).marks = ⟨.general, 0, p⟩ :: e.marks := rfl
@[simp] theorem markAll_ev_marks (k : SectionKind) (o : Nat) (ps : List Nat) :
    (e.markAll k o ps).marks = ps.map (fun p => ⟨k, o, p⟩) ++ e.marks := rfl
@[simp] theorem touchString_ev_strings (k : Nat) : (e.touchString k).strings = k :: e.strings := rfl

end Sys2Proof.Machine.Ev
end

