-- ==== Sys2Proof/Laws/Frames.lean ====
section
/-! SUPPORT. What each operation that blocks share leaves as it is: for every field that it does not change, one lemma. -/

set_option linter.unusedSimpArgs false
set_option linter.constructorNameAsVariable false

namespace Sys2Proof.Machine

-- One proof text serves each family of lemmas below, so some of its parts do nothing for some of the lemmas.
set_option linter.unnecessarySeqFocus false
set_option linter.unreachableTactic false
set_option linter.unusedTactic false

/-- The state that no hand-on between blocks touches. -/
def State.base (s : State) :=
  (s.pending, s.loader, s.plant, s.stray, s.sensors, s.gas, s.airLink, s.allFull, s.runner, s.mem)

/-- The queue of events, memory and the memory port. -/
def State.bus (s : State) := (s.pending, s.mem, s.path)

theorem State.base_mk (a b c d e f g h i j k l m n o p q r s t u v w) :
    (State.mk a b c d e f g h i j k l m n o p q r s t u v w).base = (a, b, c, g, k, l, m, q, v, w) := rfl

theorem State.bus_mk (a b c d e f g h i j k l m n o p q r s t u v w) :
    (State.mk a b c d e f g h i j k l m n o p q r s t u v w).bus = (a, w, t) := rfl

namespace Ev

theorem forEach_nil {α : Type} (e : Ev) (f : Ev → α → Ev) : e.forEach [] f = e := rfl

theorem forEach_cons {α : Type} (e : Ev) (a : α) (l : List α) (f : Ev → α → Ev) :
    e.forEach (a :: l) f = (f e a).forEach l f := rfl

/-- What every item keeps, all of them keep. -/
theorem forEach_keeps {α β : Type} (v : Ev → β) (l : List α) (f : Ev → α → Ev) (h : ∀ e a, v (f e a) = v e) :
    ∀ e, v (e.forEach l f) = v e := by
  induction l with
  | nil => intro e; rfl
  | cons a l ih => intro e; rw [forEach_cons, ih, h]

@[simp] theorem modifyZone_base (e : Ev) (z : Nat) (f : Zone → Zone) : (e.modifyZone z f).s.base = e.s.base := rfl
@[simp] theorem modifyBay_base (e : Ev) (b : Nat) (f : Bay → Bay) : (e.modifyBay b f).s.base = e.s.base := rfl
@[simp] theorem modifyPoint_base (e : Ev) (d : Nat) (f : Point → Point) : (e.modifyPoint d f).s.base = e.s.base := rfl
@[simp] theorem modifyGroup_base (e : Ev) (g : Nat) (f : Group → Group) : (e.modifyGroup g f).s.base = e.s.base := rfl
@[simp] theorem modifyString_base (e : Ev) (k : Nat) (f : LampString → LampString) : (e.modifyString k f).s.base = e.s.base := rfl
@[simp] theorem modifyLine_base (e : Ev) (l : DriveLine) (f : LineRecord → LineRecord) : (e.modifyLine l f).s.base = e.s.base := rfl
@[simp] theorem modifyBudget_base (e : Ev) (f : Budget → Budget) : (e.modifyBudget f).s.base = e.s.base := rfl
@[simp] theorem modifyPath_base (e : Ev) (f : MemoryPath → MemoryPath) : (e.modifyPath f).s.base = e.s.base := rfl
@[simp] theorem modifyNotices_base (e : Ev) (f : Notices → Notices) : (e.modifyNotices f).s.base = e.s.base := rfl
@[simp] theorem modifyLamp_base (e : Ev) (f : LampLink → LampLink) : (e.modifyLamp f).s.base = e.s.base := rfl
@[simp] theorem modifyBayLink_base (e : Ev) (f : BayLink → BayLink) : (e.modifyBayLink f).s.base = e.s.base := rfl

@[simp] theorem modifyZone_bus (e : Ev) (z : Nat) (f : Zone → Zone) : (e.modifyZone z f).s.bus = e.s.bus := rfl
@[simp] theorem modifyBay_bus (e : Ev) (b : Nat) (f : Bay → Bay) : (e.modifyBay b f).s.bus = e.s.bus := rfl
@[simp] theorem modifyPoint_bus (e : Ev) (d : Nat) (f : Point → Point) : (e.modifyPoint d f).s.bus = e.s.bus := rfl
@[simp] theorem modifySensor_bus (e : Ev) (n : Nat) (f : Sensor → Sensor) : (e.modifySensor n f).s.bus = e.s.bus := rfl
@[simp] theorem modifyGas_bus (e : Ev) (z : Nat) (f : ZoneGas → ZoneGas) : (e.modifyGas z f).s.bus = e.s.bus := rfl
@[simp] theorem modifyGroup_bus (e : Ev) (g : Nat) (f : Group → Group) : (e.modifyGroup g f).s.bus = e.s.bus := rfl
@[simp] theorem modifyString_bus (e : Ev) (k : Nat) (f : LampString → LampString) : (e.modifyString k f).s.bus = e.s.bus := rfl
@[simp] theorem modifyLine_bus (e : Ev) (l : DriveLine) (f : LineRecord → LineRecord) : (e.modifyLine l f).s.bus = e.s.bus := rfl
@[simp] theorem modifyBudget_bus (e : Ev) (f : Budget → Budget) : (e.modifyBudget f).s.bus = e.s.bus := rfl
@[simp] theorem modifyNotices_bus (e : Ev) (f : Notices → Notices) : (e.modifyNotices f).s.bus = e.s.bus := rfl
@[simp] theorem modifyRunner_bus (e : Ev) (f : Runner → Runner) : (e.modifyRunner f).s.bus = e.s.bus := rfl
@[simp] theorem modifyLamp_bus (e : Ev) (f : LampLink → LampLink) : (e.modifyLamp f).s.bus = e.s.bus := rfl
@[simp] theorem modifyBayLink_bus (e : Ev) (f : BayLink → BayLink) : (e.modifyBayLink f).s.bus = e.s.bus := rfl
@[simp] theorem modifyLoader_bus (e : Ev) (f : Loader → Loader) : (e.modifyLoader f).s.bus = e.s.bus := rfl
@[simp] theorem modifyPlant_bus (e : Ev) (f : Plant → Plant) : (e.modifyPlant f).s.bus = e.s.bus := rfl

@[simp] theorem forEach_base {α : Type} (e : Ev) (l : List α) (f : Ev → α → Ev)
    (h : ∀ e a, (f e a).s.base = e.s.base) : (e.forEach l f).s.base = e.s.base :=
  forEach_keeps (·.s.base) l f h e

@[simp] theorem forEach_bus {α : Type} (e : Ev) (l : List α) (f : Ev → α → Ev)
    (h : ∀ e a, (f e a).s.bus = e.s.bus) : (e.forEach l f).s.bus = e.s.bus :=
  forEach_keeps (·.s.bus) l f h e

@[simp] theorem forEach_zones {α : Type} (e : Ev) (l : List α) (f : Ev → α → Ev)
    (h : ∀ e a, (f e a).s.zones = e.s.zones) : (e.forEach l f).s.zones = e.s.zones :=
  forEach_keeps (·.s.zones) l f h e

@[simp] theorem forEach_bays {α : Type} (e : Ev) (l : List α) (f : Ev → α → Ev)
    (h : ∀ e a, (f e a).s.bays = e.s.bays) : (e.forEach l f).s.bays = e.s.bays :=
  forEach_keeps (·.s.bays) l f h e

@[simp] theorem forEach_holds {α : Type} (e : Ev) (l : List α) (f : Ev → α → Ev)
    (h : ∀ e a, (f e a).s.holds = e.s.holds) : (e.forEach l f).s.holds = e.s.holds :=
  forEach_keeps (·.s.holds) l f h e

@[simp] theorem forEach_bayLink {α : Type} (e : Ev) (l : List α) (f : Ev → α → Ev)
    (h : ∀ e a, (f e a).s.bayLink = e.s.bayLink) : (e.forEach l f).s.bayLink = e.s.bayLink :=
  forEach_keeps (·.s.bayLink) l f h e

@[simp] theorem forEach_points {α : Type} (e : Ev) (l : List α) (f : Ev → α → Ev)
    (h : ∀ e a, (f e a).s.points = e.s.points) : (e.forEach l f).s.points = e.s.points :=
  forEach_keeps (·.s.points) l f h e

@[simp] theorem forEach_pool {α : Type} (e : Ev) (l : List α) (f : Ev → α → Ev)
    (h : ∀ e a, (f e a).s.pool = e.s.pool) : (e.forEach l f).s.pool = e.s.pool :=
  forEach_keeps (·.s.pool) l f h e

@[simp] theorem forEach_groups {α : Type} (e : Ev) (l : List α) (f : Ev → α → Ev)
    (h : ∀ e a, (f e a).s.groups = e.s.groups) : (e.forEach l f).s.groups = e.s.groups :=
  forEach_keeps (·.s.groups) l f h e

@[simp] theorem forEach_lines {α : Type} (e : Ev) (l : List α) (f : Ev → α → Ev)
    (h : ∀ e a, (f e a).s.lines = e.s.lines) : (e.forEach l f).s.lines = e.s.lines :=
  forEach_keeps (·.s.lines) l f h e

@[simp] theorem forEach_strings {α : Type} (e : Ev) (l : List α) (f : Ev → α → Ev)
    (h : ∀ e a, (f e a).s.strings = e.s.strings) : (e.forEach l f).s.strings = e.s.strings :=
  forEach_keeps (·.s.strings) l f h e

@[simp] theorem forEach_lampLink {α : Type} (e : Ev) (l : List α) (f : Ev → α → Ev)
    (h : ∀ e a, (f e a).s.lampLink = e.s.lampLink) : (e.forEach l f).s.lampLink = e.s.lampLink :=
  forEach_keeps (·.s.lampLink) l f h e

@[simp] theorem forEach_budget {α : Type} (e : Ev) (l : List α) (f : Ev → α → Ev)
    (h : ∀ e a, (f e a).s.budget = e.s.budget) : (e.forEach l f).s.budget = e.s.budget :=
  forEach_keeps (·.s.budget) l f h e

@[simp] theorem forEach_notices {α : Type} (e : Ev) (l : List α) (f : Ev → α → Ev)
    (h : ∀ e a, (f e a).s.notices = e.s.notices) : (e.forEach l f).s.notices = e.s.notices :=
  forEach_keeps (·.s.notices) l f h e

@[simp] theorem forEach_path {α : Type} (e : Ev) (l : List α) (f : Ev → α → Ev)
    (h : ∀ e a, (f e a).s.path = e.s.path) : (e.forEach l f).s.path = e.s.path :=
  forEach_keeps (·.s.path) l f h e

@[simp] theorem post_base (e : Ev) (kind : NoticeKind) (severity : Nat) (object : Option Nat) (detail : Word) : (Ev.post e kind severity object detail).s.base = e.s.base := by
  simp only [post]; (repeat' split) <;> simp [State.base_mk] <;> rfl
@[simp] theorem post_bus (e : Ev) (kind : NoticeKind) (severity : Nat) (object : Option Nat) (detail : Word) : (Ev.post e kind severity object detail).s.bus = e.s.bus := by
  simp only [post]; (repeat' split) <;> simp [State.bus_mk] <;> rfl
@[simp] theorem post_zones (e : Ev) (kind : NoticeKind) (severity : Nat) (object : Option Nat) (detail : Word) : (Ev.post e kind severity object detail).s.zones = e.s.zones := by
  simp only [post]; (repeat' split) <;> simp
@[simp] theorem post_bays (e : Ev) (kind : NoticeKind) (severity : Nat) (object : Option Nat) (detail : Word) : (Ev.post e kind severity object detail).s.bays = e.s.bays := by
  simp only [post]; (repeat' split) <;> simp
@[simp] theorem post_holds (e : Ev) (kind : NoticeKind) (severity : Nat) (object : Option Nat) (detail : Word) : (Ev.post e kind severity object detail).s.holds = e.s.holds := by
  simp only [post]; (repeat' split) <;> simp
@[simp] theorem post_bayLink (e : Ev) (kind : NoticeKind) (severity : Nat) (object : Option Nat) (detail : Word) : (Ev.post e kind severity object detail).s.bayLink = e.s.bayLink := by
  simp only [post]; (repeat' split) <;> simp
@[simp] theorem post_points (e : Ev) (kind : NoticeKind) (severity : Nat) (object : Option Nat) (detail : Word) : (Ev.post e kind severity object detail).s.points = e.s.points := by
  simp only [post]; (repeat' split) <;> simp
@[simp] theorem post_pool (e : Ev) (kind : NoticeKind) (severity : Nat) (object : Option Nat) (detail : Word) : (Ev.post e kind severity object detail).s.pool = e.s.pool := by
  simp only [post]; (repeat' split) <;> simp
@[simp] theorem post_groups (e : Ev) (kind : NoticeKind) (severity : Nat) (object : Option Nat) (detail : Word) : (Ev.post e kind severity object detail).s.groups = e.s.groups := by
  simp only [post]; (repeat' split) <;> simp
@[simp] theorem post_lines (e : Ev) (kind : NoticeKind) (severity : Nat) (object : Option Nat) (detail : Word) : (Ev.post e kind severity object detail).s.lines = e.s.lines := by
  simp only [post]; (repeat' split) <;> simp
@[simp] theorem post_strings (e : Ev) (kind : NoticeKind) (severity : Nat) (object : Option Nat) (detail : Word) : (Ev.post e kind severity object detail).s.strings = e.s.strings := by
  simp only [post]; (repeat' split) <;> simp
@[simp] theorem post_lampLink (e : Ev) (kind : NoticeKind) (severity : Nat) (object : Option Nat) (detail : Word) : (Ev.post e kind severity object detail).s.lampLink = e.s.lampLink := by
  simp only [post]; (repeat' split) <;> simp
@[simp] theorem post_budget (e : Ev) (kind : NoticeKind) (severity : Nat) (object : Option Nat) (detail : Word) : (Ev.post e kind severity object detail).s.budget = e.s.budget := by
  simp only [post]; (repeat' split) <;> simp
@[simp] theorem post_path (e : Ev) (kind : NoticeKind) (severity : Nat) (object : Option Nat) (detail : Word) : (Ev.post e kind severity object detail).s.path = e.s.path := by
  simp only [post]; (repeat' split) <;> simp
@[simp] theorem setSignPending_base (e : Ev) (d : Nat) : (Ev.setSignPending e d).s.base = e.s.base := by
  simp only [setSignPending]; (repeat' split) <;> simp [State.base_mk] <;> rfl
@[simp] theorem setSignPending_bus (e : Ev) (d : Nat) : (Ev.setSignPending e d).s.bus = e.s.bus := by
  simp only [setSignPending]; (repeat' split) <;> simp [State.bus_mk] <;> rfl
@[simp] theorem setSignPending_zones (e : Ev) (d : Nat) : (Ev.setSignPending e d).s.zones = e.s.zones := by
  simp only [setSignPending]; (repeat' split) <;> simp
@[simp] theorem setSignPending_bays (e : Ev) (d : Nat) : (Ev.setSignPending e d).s.bays = e.s.bays := by
  simp only [setSignPending]; (repeat' split) <;> simp
@[simp] theorem setSignPending_holds (e : Ev) (d : Nat) : (Ev.setSignPending e d).s.holds = e.s.holds := by
  simp only [setSignPending]; (repeat' split) <;> simp
@[simp] theorem setSignPending_bayLink (e : Ev) (d : Nat) : (Ev.setSignPending e d).s.bayLink = e.s.bayLink := by
  simp only [setSignPending]; (repeat' split) <;> simp
@[simp] theorem setSignPending_points (e : Ev) (d : Nat) : (Ev.setSignPending e d).s.points = e.s.points := by
  simp only [setSignPending]; (repeat' split) <;> simp
@[simp] theorem setSignPending_pool (e : Ev) (d : Nat) : (Ev.setSignPending e d).s.pool = e.s.pool := by
  simp only [setSignPending]; (repeat' split) <;> simp
@[simp] theorem setSignPending_groups (e : Ev) (d : Nat) : (Ev.setSignPending e d).s.groups = e.s.groups := by
  simp only [setSignPending]; (repeat' split) <;> simp
@[simp] theorem setSignPending_lines (e : Ev) (d : Nat) : (Ev.setSignPending e d).s.lines = e.s.lines := by
  simp only [setSignPending]; (repeat' split) <;> simp
@[simp] theorem setSignPending_strings (e : Ev) (d : Nat) : (Ev.setSignPending e d).s.strings = e.s.strings := by
  simp only [setSignPending]; (repeat' split) <;> simp
@[simp] theorem setSignPending_budget (e : Ev) (d : Nat) : (Ev.setSignPending e d).s.budget = e.s.budget := by
  simp only [setSignPending]; (repeat' split) <;> simp
@[simp] theorem setSignPending_notices (e : Ev) (d : Nat) : (Ev.setSignPending e d).s.notices = e.s.notices := by
  simp only [setSignPending]; (repeat' split) <;> simp
@[simp] theorem setSignPending_path (e : Ev) (d : Nat) : (Ev.setSignPending e d).s.path = e.s.path := by
  simp only [setSignPending]; (repeat' split) <;> simp
@[simp] theorem setStringPending_base (e : Ev) (k : Nat) : (Ev.setStringPending e k).s.base = e.s.base := by
  simp only [setStringPending]; (repeat' split) <;> simp [State.base_mk] <;> rfl
@[simp] theorem setStringPending_bus (e : Ev) (k : Nat) : (Ev.setStringPending e k).s.bus = e.s.bus := by
  simp only [setStringPending]; (repeat' split) <;> simp [State.bus_mk] <;> rfl
@[simp] theorem setStringPending_zones (e : Ev) (k : Nat) : (Ev.setStringPending e k).s.zones = e.s.zones := by
  simp only [setStringPending]; (repeat' split) <;> simp
@[simp] theorem setStringPending_bays (e : Ev) (k : Nat) : (Ev.setStringPending e k).s.bays = e.s.bays := by
  simp only [setStringPending]; (repeat' split) <;> simp
@[simp] theorem setStringPending_holds (e : Ev) (k : Nat) : (Ev.setStringPending e k).s.holds = e.s.holds := by
  simp only [setStringPending]; (repeat' split) <;> simp
@[simp] theorem setStringPending_bayLink (e : Ev) (k : Nat) : (Ev.setStringPending e k).s.bayLink = e.s.bayLink := by
  simp only [setStringPending]; (repeat' split) <;> simp
@[simp] theorem setStringPending_points (e : Ev) (k : Nat) : (Ev.setStringPending e k).s.points = e.s.points := by
  simp only [setStringPending]; (repeat' split) <;> simp
@[simp] theorem setStringPending_pool (e : Ev) (k : Nat) : (Ev.setStringPending e k).s.pool = e.s.pool := by
  simp only [setStringPending]; (repeat' split) <;> simp
@[simp] theorem setStringPending_groups (e : Ev) (k : Nat) : (Ev.setStringPending e k).s.groups = e.s.groups := by
  simp only [setStringPending]; (repeat' split) <;> simp
@[simp] theorem setStringPending_lines (e : Ev) (k : Nat) : (Ev.setStringPending e k).s.lines = e.s.lines := by
  simp only [setStringPending]; (repeat' split) <;> simp
@[simp] theorem setStringPending_strings (e : Ev) (k : Nat) : (Ev.setStringPending e k).s.strings = e.s.strings := by
  simp only [setStringPending]; (repeat' split) <;> simp
@[simp] theorem setStringPending_budget (e : Ev) (k : Nat) : (Ev.setStringPending e k).s.budget = e.s.budget := by
  simp only [setStringPending]; (repeat' split) <;> simp
@[simp] theorem setStringPending_notices (e : Ev) (k : Nat) : (Ev.setStringPending e k).s.notices = e.s.notices := by
  simp only [setStringPending]; (repeat' split) <;> simp
@[simp] theorem setStringPending_path (e : Ev) (k : Nat) : (Ev.setStringPending e k).s.path = e.s.path := by
  simp only [setStringPending]; (repeat' split) <;> simp
@[simp] theorem setIndicatorPending_base (e : Ev) (b : Nat) : (Ev.setIndicatorPending e b).s.base = e.s.base := by
  simp only [setIndicatorPending]; (repeat' split) <;> simp [State.base_mk] <;> rfl
@[simp] theorem setIndicatorPending_bus (e : Ev) (b : Nat) : (Ev.setIndicatorPending e b).s.bus = e.s.bus := by
  simp only [setIndicatorPending]; (repeat' split) <;> simp [State.bus_mk] <;> rfl
@[simp] theorem setIndicatorPending_zones (e : Ev) (b : Nat) : (Ev.setIndicatorPending e b).s.zones = e.s.zones := by
  simp only [setIndicatorPending]; (repeat' split) <;> simp
@[simp] theorem setIndicatorPending_bays (e : Ev) (b : Nat) : (Ev.setIndicatorPending e b).s.bays = e.s.bays := by
  simp only [setIndicatorPending]; (repeat' split) <;> simp
@[simp] theorem setIndicatorPending_holds (e : Ev) (b : Nat) : (Ev.setIndicatorPending e b).s.holds = e.s.holds := by
  simp only [setIndicatorPending]; (repeat' split) <;> simp
@[simp] theorem setIndicatorPending_points (e : Ev) (b : Nat) : (Ev.setIndicatorPending e b).s.points = e.s.points := by
  simp only [setIndicatorPending]; (repeat' split) <;> simp
@[simp] theorem setIndicatorPending_pool (e : Ev) (b : Nat) : (Ev.setIndicatorPending e b).s.pool = e.s.pool := by
  simp only [setIndicatorPending]; (repeat' split) <;> simp
@[simp] theorem setIndicatorPending_groups (e : Ev) (b : Nat) : (Ev.setIndicatorPending e b).s.groups = e.s.groups := by
  simp only [setIndicatorPending]; (repeat' split) <;> simp
@[simp] theorem setIndicatorPending_lines (e : Ev) (b : Nat) : (Ev.setIndicatorPending e b).s.lines = e.s.lines := by
  simp only [setIndicatorPending]; (repeat' split) <;> simp
@[simp] theorem setIndicatorPending_strings (e : Ev) (b : Nat) : (Ev.setIndicatorPending e b).s.strings = e.s.strings := by
  simp only [setIndicatorPending]; (repeat' split) <;> simp
@[simp] theorem setIndicatorPending_lampLink (e : Ev) (b : Nat) : (Ev.setIndicatorPending e b).s.lampLink = e.s.lampLink := by
  simp only [setIndicatorPending]; (repeat' split) <;> simp
@[simp] theorem setIndicatorPending_budget (e : Ev) (b : Nat) : (Ev.setIndicatorPending e b).s.budget = e.s.budget := by
  simp only [setIndicatorPending]; (repeat' split) <;> simp
@[simp] theorem setIndicatorPending_notices (e : Ev) (b : Nat) : (Ev.setIndicatorPending e b).s.notices = e.s.notices := by
  simp only [setIndicatorPending]; (repeat' split) <;> simp
@[simp] theorem setIndicatorPending_path (e : Ev) (b : Nat) : (Ev.setIndicatorPending e b).s.path = e.s.path := by
  simp only [setIndicatorPending]; (repeat' split) <;> simp
@[simp] theorem markPromise_base (e : Ev) (t : Target) : (Ev.markPromise e t).s.base = e.s.base := by
  simp only [markPromise]; (repeat' split) <;> simp [State.base_mk] <;> rfl
@[simp] theorem markPromise_bus (e : Ev) (t : Target) : (Ev.markPromise e t).s.bus = e.s.bus := by
  simp only [markPromise]; (repeat' split) <;> simp [State.bus_mk] <;> rfl
@[simp] theorem markPromise_zones (e : Ev) (t : Target) : (Ev.markPromise e t).s.zones = e.s.zones := by
  simp only [markPromise]; (repeat' split) <;> simp
@[simp] theorem markPromise_bays (e : Ev) (t : Target) : (Ev.markPromise e t).s.bays = e.s.bays := by
  simp only [markPromise]; (repeat' split) <;> simp
@[simp] theorem markPromise_holds (e : Ev) (t : Target) : (Ev.markPromise e t).s.holds = e.s.holds := by
  simp only [markPromise]; (repeat' split) <;> simp
@[simp] theorem markPromise_bayLink (e : Ev) (t : Target) : (Ev.markPromise e t).s.bayLink = e.s.bayLink := by
  simp only [markPromise]; (repeat' split) <;> simp
@[simp] theorem markPromise_points (e : Ev) (t : Target) : (Ev.markPromise e t).s.points = e.s.points := by
  simp only [markPromise]; (repeat' split) <;> simp
@[simp] theorem markPromise_pool (e : Ev) (t : Target) : (Ev.markPromise e t).s.pool = e.s.pool := by
  simp only [markPromise]; (repeat' split) <;> simp
@[simp] theorem markPromise_groups (e : Ev) (t : Target) : (Ev.markPromise e t).s.groups = e.s.groups := by
  simp only [markPromise]; (repeat' split) <;> simp
@[simp] theorem markPromise_lines (e : Ev) (t : Target) : (Ev.markPromise e t).s.lines = e.s.lines := by
  simp only [markPromise]; (repeat' split) <;> simp
@[simp] theorem markPromise_strings (e : Ev) (t : Target) : (Ev.markPromise e t).s.strings = e.s.strings := by
  simp only [markPromise]; (repeat' split) <;> simp
@[simp] theorem markPromise_lampLink (e : Ev) (t : Target) : (Ev.markPromise e t).s.lampLink = e.s.lampLink := by
  simp only [markPromise]; (repeat' split) <;> simp
@[simp] theorem markPromise_budget (e : Ev) (t : Target) : (Ev.markPromise e t).s.budget = e.s.budget := by
  simp only [markPromise]; (repeat' split) <;> simp
@[simp] theorem markPromise_notices (e : Ev) (t : Target) : (Ev.markPromise e t).s.notices = e.s.notices := by
  simp only [markPromise]; (repeat' split) <;> simp
@[simp] theorem markPromise_path (e : Ev) (t : Target) : (Ev.markPromise e t).s.path = e.s.path := by
  simp only [markPromise]; (repeat' split) <;> simp
@[simp] theorem removeOldest_base (e : Ev) (p : Promise → Bool) : (Ev.removeOldest e p).s.base = e.s.base := by
  rfl
@[simp] theorem removeOldest_bus (e : Ev) (p : Promise → Bool) : (Ev.removeOldest e p).s.bus = e.s.bus := by
  rfl
@[simp] theorem removeOldest_zones (e : Ev) (p : Promise → Bool) : (Ev.removeOldest e p).s.zones = e.s.zones := by
  rfl
@[simp] theorem removeOldest_bays (e : Ev) (p : Promise → Bool) : (Ev.removeOldest e p).s.bays = e.s.bays := by
  rfl
@[simp] theorem removeOldest_holds (e : Ev) (p : Promise → Bool) : (Ev.removeOldest e p).s.holds = e.s.holds := by
  rfl
@[simp] theorem removeOldest_bayLink (e : Ev) (p : Promise → Bool) : (Ev.removeOldest e p).s.bayLink = e.s.bayLink := by
  rfl
@[simp] theorem removeOldest_points (e : Ev) (p : Promise → Bool) : (Ev.removeOldest e p).s.points = e.s.points := by
  rfl
@[simp] theorem removeOldest_groups (e : Ev) (p : Promise → Bool) : (Ev.removeOldest e p).s.groups = e.s.groups := by
  rfl
@[simp] theorem removeOldest_lines (e : Ev) (p : Promise → Bool) : (Ev.removeOldest e p).s.lines = e.s.lines := by
  rfl
@[simp] theorem removeOldest_strings (e : Ev) (p : Promise → Bool) : (Ev.removeOldest e p).s.strings = e.s.strings := by
  rfl
@[simp] theorem removeOldest_lampLink (e : Ev) (p : Promise → Bool) : (Ev.removeOldest e p).s.lampLink = e.s.lampLink := by
  rfl
@[simp] theorem removeOldest_budget (e : Ev) (p : Promise → Bool) : (Ev.removeOldest e p).s.budget = e.s.budget := by
  rfl
@[simp] theorem removeOldest_notices (e : Ev) (p : Promise → Bool) : (Ev.removeOldest e p).s.notices = e.s.notices := by
  rfl
@[simp] theorem removeOldest_path (e : Ev) (p : Promise → Bool) : (Ev.removeOldest e p).s.path = e.s.path := by
  rfl
@[simp] theorem removeYoungest_base (e : Ev) (p : Promise → Bool) : (Ev.removeYoungest e p).s.base = e.s.base := by
  rfl
@[simp] theorem removeYoungest_bus (e : Ev) (p : Promise → Bool) : (Ev.removeYoungest e p).s.bus = e.s.bus := by
  rfl
@[simp] theorem removeYoungest_zones (e : Ev) (p : Promise → Bool) : (Ev.removeYoungest e p).s.zones = e.s.zones := by
  rfl
@[simp] theorem removeYoungest_bays (e : Ev) (p : Promise → Bool) : (Ev.removeYoungest e p).s.bays = e.s.bays := by
  rfl
@[simp] theorem removeYoungest_holds (e : Ev) (p : Promise → Bool) : (Ev.removeYoungest e p).s.holds = e.s.holds := by
  rfl
@[simp] theorem removeYoungest_bayLink (e : Ev) (p : Promise → Bool) : (Ev.removeYoungest e p).s.bayLink = e.s.bayLink := by
  rfl
@[simp] theorem removeYoungest_points (e : Ev) (p : Promise → Bool) : (Ev.removeYoungest e p).s.points = e.s.points := by
  rfl
@[simp] theorem removeYoungest_groups (e : Ev) (p : Promise → Bool) : (Ev.removeYoungest e p).s.groups = e.s.groups := by
  rfl
@[simp] theorem removeYoungest_lines (e : Ev) (p : Promise → Bool) : (Ev.removeYoungest e p).s.lines = e.s.lines := by
  rfl
@[simp] theorem removeYoungest_strings (e : Ev) (p : Promise → Bool) : (Ev.removeYoungest e p).s.strings = e.s.strings := by
  rfl
@[simp] theorem removeYoungest_lampLink (e : Ev) (p : Promise → Bool) : (Ev.removeYoungest e p).s.lampLink = e.s.lampLink := by
  rfl
@[simp] theorem removeYoungest_budget (e : Ev) (p : Promise → Bool) : (Ev.removeYoungest e p).s.budget = e.s.budget := by
  rfl
@[simp] theorem removeYoungest_notices (e : Ev) (p : Promise → Bool) : (Ev.removeYoungest e p).s.notices = e.s.notices := by
  rfl
@[simp] theorem removeYoungest_path (e : Ev) (p : Promise → Bool) : (Ev.removeYoungest e p).s.path = e.s.path := by
  rfl
@[simp] theorem consume_base (e : Ev) (t : Target) (c : BayClass) : (Ev.consume e t c).s.base = e.s.base := by
  simp only [consume]; (repeat' split) <;> simp [State.base_mk] <;> rfl
@[simp] theorem consume_bus (e : Ev) (t : Target) (c : BayClass) : (Ev.consume e t c).s.bus = e.s.bus := by
  simp only [consume]; (repeat' split) <;> simp [State.bus_mk] <;> rfl
@[simp] theorem consume_zones (e : Ev) (t : Target) (c : BayClass) : (Ev.consume e t c).s.zones = e.s.zones := by
  simp only [consume]; (repeat' split) <;> simp
@[simp] theorem consume_bays (e : Ev) (t : Target) (c : BayClass) : (Ev.consume e t c).s.bays = e.s.bays := by
  simp only [consume]; (repeat' split) <;> simp
@[simp] theorem consume_holds (e : Ev) (t : Target) (c : BayClass) : (Ev.consume e t c).s.holds = e.s.holds := by
  simp only [consume]; (repeat' split) <;> simp
@[simp] theorem consume_bayLink (e : Ev) (t : Target) (c : BayClass) : (Ev.consume e t c).s.bayLink = e.s.bayLink := by
  simp only [consume]; (repeat' split) <;> simp
@[simp] theorem consume_points (e : Ev) (t : Target) (c : BayClass) : (Ev.consume e t c).s.points = e.s.points := by
  simp only [consume]; (repeat' split) <;> simp
@[simp] theorem consume_groups (e : Ev) (t : Target) (c : BayClass) : (Ev.consume e t c).s.groups = e.s.groups := by
  simp only [consume]; (repeat' split) <;> simp
@[simp] theorem consume_lines (e : Ev) (t : Target) (c : BayClass) : (Ev.consume e t c).s.lines = e.s.lines := by
  simp only [consume]; (repeat' split) <;> simp
@[simp] theorem consume_strings (e : Ev) (t : Target) (c : BayClass) : (Ev.consume e t c).s.strings = e.s.strings := by
  simp only [consume]; (repeat' split) <;> simp
@[simp] theorem consume_lampLink (e : Ev) (t : Target) (c : BayClass) : (Ev.consume e t c).s.lampLink = e.s.lampLink := by
  simp only [consume]; (repeat' split) <;> simp
@[simp] theorem consume_budget (e : Ev) (t : Target) (c : BayClass) : (Ev.consume e t c).s.budget = e.s.budget := by
  simp only [consume]; (repeat' split) <;> simp
@[simp] theorem consume_notices (e : Ev) (t : Target) (c : BayClass) : (Ev.consume e t c).s.notices = e.s.notices := by
  simp only [consume]; (repeat' split) <;> simp
@[simp] theorem consume_path (e : Ev) (t : Target) (c : BayClass) : (Ev.consume e t c).s.path = e.s.path := by
  simp only [consume]; (repeat' split) <;> simp
@[simp] theorem consumeArrival_base (e : Ev) (z : Nat) (c : BayClass) : (Ev.consumeArrival e z c).s.base = e.s.base := by
  simp only [consumeArrival]; (repeat' split) <;> simp [State.base_mk] <;> rfl
@[simp] theorem consumeArrival_bus (e : Ev) (z : Nat) (c : BayClass) : (Ev.consumeArrival e z c).s.bus = e.s.bus := by
  simp only [consumeArrival]; (repeat' split) <;> simp [State.bus_mk] <;> rfl
@[simp] theorem consumeArrival_bays (e : Ev) (z : Nat) (c : BayClass) : (Ev.consumeArrival e z c).s.bays = e.s.bays := by
  simp only [consumeArrival]; (repeat' split) <;> simp
@[simp] theorem consumeArrival_holds (e : Ev) (z : Nat) (c : BayClass) : (Ev.consumeArrival e z c).s.holds = e.s.holds := by
  simp only [consumeArrival]; (repeat' split) <;> simp
@[simp] theorem consumeArrival_bayLink (e : Ev) (z : Nat) (c : BayClass) : (Ev.consumeArrival e z c).s.bayLink = e.s.bayLink := by
  simp only [consumeArrival]; (repeat' split) <;> simp
@[simp] theorem consumeArrival_points (e : Ev) (z : Nat) (c : BayClass) : (Ev.consumeArrival e z c).s.points = e.s.points := by
  simp only [consumeArrival]; (repeat' split) <;> simp
@[simp] theorem consumeArrival_groups (e : Ev) (z : Nat) (c : BayClass) : (Ev.consumeArrival e z c).s.groups = e.s.groups := by
  simp only [consumeArrival]; (repeat' split) <;> simp
@[simp] theorem consumeArrival_lines (e : Ev) (z : Nat) (c : BayClass) : (Ev.consumeArrival e z c).s.lines = e.s.lines := by
  simp only [consumeArrival]; (repeat' split) <;> simp
@[simp] theorem consumeArrival_strings (e : Ev) (z : Nat) (c : BayClass) : (Ev.consumeArrival e z c).s.strings = e.s.strings := by
  simp only [consumeArrival]; (repeat' split) <;> simp
@[simp] theorem consumeArrival_lampLink (e : Ev) (z : Nat) (c : BayClass) : (Ev.consumeArrival e z c).s.lampLink = e.s.lampLink := by
  simp only [consumeArrival]; (repeat' split) <;> simp
@[simp] theorem consumeArrival_budget (e : Ev) (z : Nat) (c : BayClass) : (Ev.consumeArrival e z c).s.budget = e.s.budget := by
  simp only [consumeArrival]; (repeat' split) <;> simp
@[simp] theorem consumeArrival_notices (e : Ev) (z : Nat) (c : BayClass) : (Ev.consumeArrival e z c).s.notices = e.s.notices := by
  simp only [consumeArrival]; (repeat' split) <;> simp
@[simp] theorem consumeArrival_path (e : Ev) (z : Nat) (c : BayClass) : (Ev.consumeArrival e z c).s.path = e.s.path := by
  simp only [consumeArrival]; (repeat' split) <;> simp
@[simp] theorem withdrawOne_base (e : Ev) (z : Nat) (c : BayClass) : (Ev.withdrawOne e z c).s.base = e.s.base := by
  simp only [withdrawOne]; (repeat' split) <;> simp [State.base_mk] <;> rfl
@[simp] theorem withdrawOne_bus (e : Ev) (z : Nat) (c : BayClass) : (Ev.withdrawOne e z c).s.bus = e.s.bus := by
  simp only [withdrawOne]; (repeat' split) <;> simp [State.bus_mk] <;> rfl
@[simp] theorem withdrawOne_bays (e : Ev) (z : Nat) (c : BayClass) : (Ev.withdrawOne e z c).s.bays = e.s.bays := by
  simp only [withdrawOne]; (repeat' split) <;> simp
@[simp] theorem withdrawOne_holds (e : Ev) (z : Nat) (c : BayClass) : (Ev.withdrawOne e z c).s.holds = e.s.holds := by
  simp only [withdrawOne]; (repeat' split) <;> simp
@[simp] theorem withdrawOne_bayLink (e : Ev) (z : Nat) (c : BayClass) : (Ev.withdrawOne e z c).s.bayLink = e.s.bayLink := by
  simp only [withdrawOne]; (repeat' split) <;> simp
@[simp] theorem withdrawOne_points (e : Ev) (z : Nat) (c : BayClass) : (Ev.withdrawOne e z c).s.points = e.s.points := by
  simp only [withdrawOne]; (repeat' split) <;> simp
@[simp] theorem withdrawOne_groups (e : Ev) (z : Nat) (c : BayClass) : (Ev.withdrawOne e z c).s.groups = e.s.groups := by
  simp only [withdrawOne]; (repeat' split) <;> simp
@[simp] theorem withdrawOne_lines (e : Ev) (z : Nat) (c : BayClass) : (Ev.withdrawOne e z c).s.lines = e.s.lines := by
  simp only [withdrawOne]; (repeat' split) <;> simp
@[simp] theorem withdrawOne_strings (e : Ev) (z : Nat) (c : BayClass) : (Ev.withdrawOne e z c).s.strings = e.s.strings := by
  simp only [withdrawOne]; (repeat' split) <;> simp
@[simp] theorem withdrawOne_lampLink (e : Ev) (z : Nat) (c : BayClass) : (Ev.withdrawOne e z c).s.lampLink = e.s.lampLink := by
  simp only [withdrawOne]; (repeat' split) <;> simp
@[simp] theorem withdrawOne_budget (e : Ev) (z : Nat) (c : BayClass) : (Ev.withdrawOne e z c).s.budget = e.s.budget := by
  simp only [withdrawOne]; (repeat' split) <;> simp
@[simp] theorem withdrawOne_notices (e : Ev) (z : Nat) (c : BayClass) : (Ev.withdrawOne e z c).s.notices = e.s.notices := by
  simp only [withdrawOne]; (repeat' split) <;> simp
@[simp] theorem withdrawOne_path (e : Ev) (z : Nat) (c : BayClass) : (Ev.withdrawOne e z c).s.path = e.s.path := by
  simp only [withdrawOne]; (repeat' split) <;> simp
@[simp] theorem withdrawMany_base (z : Nat) (c : BayClass) :
    ∀ (n : Nat) (e : Ev), (Ev.withdrawMany e z c n).s.base = e.s.base
  | 0, _ => rfl
  | n + 1, e => by rw [withdrawMany, withdrawMany_base z c n, withdrawOne_base]
@[simp] theorem withdrawMany_bus (z : Nat) (c : BayClass) :
    ∀ (n : Nat) (e : Ev), (Ev.withdrawMany e z c n).s.bus = e.s.bus
  | 0, _ => rfl
  | n + 1, e => by rw [withdrawMany, withdrawMany_bus z c n, withdrawOne_bus]
@[simp] theorem withdrawMany_bays (z : Nat) (c : BayClass) :
    ∀ (n : Nat) (e : Ev), (Ev.withdrawMany e z c n).s.bays = e.s.bays
  | 0, _ => rfl
  | n + 1, e => by rw [withdrawMany, withdrawMany_bays z c n, withdrawOne_bays]
@[simp] theorem withdrawMany_holds (z : Nat) (c : BayClass) :
    ∀ (n : Nat) (e : Ev), (Ev.withdrawMany e z c n).s.holds = e.s.holds
  | 0, _ => rfl
  | n + 1, e => by rw [withdrawMany, withdrawMany_holds z c n, withdrawOne_holds]
@[simp] theorem withdrawMany_bayLink (z : Nat) (c : BayClass) :
    ∀ (n : Nat) (e : Ev), (Ev.withdrawMany e z c n).s.bayLink = e.s.bayLink
  | 0, _ => rfl
  | n + 1, e => by rw [withdrawMany, withdrawMany_bayLink z c n, withdrawOne_bayLink]
@[simp] theorem withdrawMany_points (z : Nat) (c : BayClass) :
    ∀ (n : Nat) (e : Ev), (Ev.withdrawMany e z c n).s.points = e.s.points
  | 0, _ => rfl
  | n + 1, e => by rw [withdrawMany, withdrawMany_points z c n, withdrawOne_points]
@[simp] theorem withdrawMany_groups (z : Nat) (c : BayClass) :
    ∀ (n : Nat) (e : Ev), (Ev.withdrawMany e z c n).s.groups = e.s.groups
  | 0, _ => rfl
  | n + 1, e => by rw [withdrawMany, withdrawMany_groups z c n, withdrawOne_groups]
@[simp] theorem withdrawMany_lines (z : Nat) (c : BayClass) :
    ∀ (n : Nat) (e : Ev), (Ev.withdrawMany e z c n).s.lines = e.s.lines
  | 0, _ => rfl
  | n + 1, e => by rw [withdrawMany, withdrawMany_lines z c n, withdrawOne_lines]
@[simp] theorem withdrawMany_strings (z : Nat) (c : BayClass) :
    ∀ (n : Nat) (e : Ev), (Ev.withdrawMany e z c n).s.strings = e.s.strings
  | 0, _ => rfl
  | n + 1, e => by rw [withdrawMany, withdrawMany_strings z c n, withdrawOne_strings]
@[simp] theorem withdrawMany_lampLink (z : Nat) (c : BayClass) :
    ∀ (n : Nat) (e : Ev), (Ev.withdrawMany e z c n).s.lampLink = e.s.lampLink
  | 0, _ => rfl
  | n + 1, e => by rw [withdrawMany, withdrawMany_lampLink z c n, withdrawOne_lampLink]
@[simp] theorem withdrawMany_budget (z : Nat) (c : BayClass) :
    ∀ (n : Nat) (e : Ev), (Ev.withdrawMany e z c n).s.budget = e.s.budget
  | 0, _ => rfl
  | n + 1, e => by rw [withdrawMany, withdrawMany_budget z c n, withdrawOne_budget]
@[simp] theorem withdrawMany_notices (z : Nat) (c : BayClass) :
    ∀ (n : Nat) (e : Ev), (Ev.withdrawMany e z c n).s.notices = e.s.notices
  | 0, _ => rfl
  | n + 1, e => by rw [withdrawMany, withdrawMany_notices z c n, withdrawOne_notices]
@[simp] theorem withdrawMany_path (z : Nat) (c : BayClass) :
    ∀ (n : Nat) (e : Ev), (Ev.withdrawMany e z c n).s.path = e.s.path
  | 0, _ => rfl
  | n + 1, e => by rw [withdrawMany, withdrawMany_path z c n, withdrawOne_path]
@[simp] theorem withdraw_base (e : Ev) (z : Nat) (c : BayClass) : (Ev.withdraw e z c).s.base = e.s.base := by
  simp only [withdraw]; (repeat' split) <;> simp [State.base_mk] <;> rfl
@[simp] theorem withdraw_bus (e : Ev) (z : Nat) (c : BayClass) : (Ev.withdraw e z c).s.bus = e.s.bus := by
  simp only [withdraw]; (repeat' split) <;> simp [State.bus_mk] <;> rfl
@[simp] theorem withdraw_bays (e : Ev) (z : Nat) (c : BayClass) : (Ev.withdraw e z c).s.bays = e.s.bays := by
  simp only [withdraw]; (repeat' split) <;> simp
@[simp] theorem withdraw_holds (e : Ev) (z : Nat) (c : BayClass) : (Ev.withdraw e z c).s.holds = e.s.holds := by
  simp only [withdraw]; (repeat' split) <;> simp
@[simp] theorem withdraw_bayLink (e : Ev) (z : Nat) (c : BayClass) : (Ev.withdraw e z c).s.bayLink = e.s.bayLink := by
  simp only [withdraw]; (repeat' split) <;> simp
@[simp] theorem withdraw_points (e : Ev) (z : Nat) (c : BayClass) : (Ev.withdraw e z c).s.points = e.s.points := by
  simp only [withdraw]; (repeat' split) <;> simp
@[simp] theorem withdraw_groups (e : Ev) (z : Nat) (c : BayClass) : (Ev.withdraw e z c).s.groups = e.s.groups := by
  simp only [withdraw]; (repeat' split) <;> simp
@[simp] theorem withdraw_lines (e : Ev) (z : Nat) (c : BayClass) : (Ev.withdraw e z c).s.lines = e.s.lines := by
  simp only [withdraw]; (repeat' split) <;> simp
@[simp] theorem withdraw_strings (e : Ev) (z : Nat) (c : BayClass) : (Ev.withdraw e z c).s.strings = e.s.strings := by
  simp only [withdraw]; (repeat' split) <;> simp
@[simp] theorem withdraw_lampLink (e : Ev) (z : Nat) (c : BayClass) : (Ev.withdraw e z c).s.lampLink = e.s.lampLink := by
  simp only [withdraw]; (repeat' split) <;> simp
@[simp] theorem withdraw_budget (e : Ev) (z : Nat) (c : BayClass) : (Ev.withdraw e z c).s.budget = e.s.budget := by
  simp only [withdraw]; (repeat' split) <;> simp
@[simp] theorem withdraw_notices (e : Ev) (z : Nat) (c : BayClass) : (Ev.withdraw e z c).s.notices = e.s.notices := by
  simp only [withdraw]; (repeat' split) <;> simp
@[simp] theorem withdraw_path (e : Ev) (z : Nat) (c : BayClass) : (Ev.withdraw e z c).s.path = e.s.path := by
  simp only [withdraw]; (repeat' split) <;> simp
@[simp] theorem setFace_base (e : Ev) (d : Nat) (st : PointState) (face : Face) : (Ev.setFace e d st face).s.base = e.s.base := by
  simp only [setFace]; (repeat' split) <;> simp [State.base_mk] <;> rfl
@[simp] theorem setFace_bus (e : Ev) (d : Nat) (st : PointState) (face : Face) : (Ev.setFace e d st face).s.bus = e.s.bus := by
  simp only [setFace]; (repeat' split) <;> simp [State.bus_mk] <;> rfl
@[simp] theorem setFace_zones (e : Ev) (d : Nat) (st : PointState) (face : Face) : (Ev.setFace e d st face).s.zones = e.s.zones := by
  simp only [setFace]; (repeat' split) <;> simp
@[simp] theorem setFace_bays (e : Ev) (d : Nat) (st : PointState) (face : Face) : (Ev.setFace e d st face).s.bays = e.s.bays := by
  simp only [setFace]; (repeat' split) <;> simp
@[simp] theorem setFace_holds (e : Ev) (d : Nat) (st : PointState) (face : Face) : (Ev.setFace e d st face).s.holds = e.s.holds := by
  simp only [setFace]; (repeat' split) <;> simp
@[simp] theorem setFace_bayLink (e : Ev) (d : Nat) (st : PointState) (face : Face) : (Ev.setFace e d st face).s.bayLink = e.s.bayLink := by
  simp only [setFace]; (repeat' split) <;> simp
@[simp] theorem setFace_pool (e : Ev) (d : Nat) (st : PointState) (face : Face) : (Ev.setFace e d st face).s.pool = e.s.pool := by
  simp only [setFace]; (repeat' split) <;> simp
@[simp] theorem setFace_groups (e : Ev) (d : Nat) (st : PointState) (face : Face) : (Ev.setFace e d st face).s.groups = e.s.groups := by
  simp only [setFace]; (repeat' split) <;> simp
@[simp] theorem setFace_lines (e : Ev) (d : Nat) (st : PointState) (face : Face) : (Ev.setFace e d st face).s.lines = e.s.lines := by
  simp only [setFace]; (repeat' split) <;> simp
@[simp] theorem setFace_strings (e : Ev) (d : Nat) (st : PointState) (face : Face) : (Ev.setFace e d st face).s.strings = e.s.strings := by
  simp only [setFace]; (repeat' split) <;> simp
@[simp] theorem setFace_budget (e : Ev) (d : Nat) (st : PointState) (face : Face) : (Ev.setFace e d st face).s.budget = e.s.budget := by
  simp only [setFace]; (repeat' split) <;> simp
@[simp] theorem setFace_notices (e : Ev) (d : Nat) (st : PointState) (face : Face) : (Ev.setFace e d st face).s.notices = e.s.notices := by
  simp only [setFace]; (repeat' split) <;> simp
@[simp] theorem setFace_path (e : Ev) (d : Nat) (st : PointState) (face : Face) : (Ev.setFace e d st face).s.path = e.s.path := by
  simp only [setFace]; (repeat' split) <;> simp
@[simp] theorem toIdle_base (e : Ev) (d : Nat) : (Ev.toIdle e d).s.base = e.s.base := by
  simp only [toIdle]; (repeat' split) <;> simp [State.base_mk] <;> rfl
@[simp] theorem toIdle_bus (e : Ev) (d : Nat) : (Ev.toIdle e d).s.bus = e.s.bus := by
  simp only [toIdle]; (repeat' split) <;> simp [State.bus_mk] <;> rfl
@[simp] theorem toIdle_zones (e : Ev) (d : Nat) : (Ev.toIdle e d).s.zones = e.s.zones := by
  simp only [toIdle]; (repeat' split) <;> simp
@[simp] theorem toIdle_bays (e : Ev) (d : Nat) : (Ev.toIdle e d).s.bays = e.s.bays := by
  simp only [toIdle]; (repeat' split) <;> simp
@[simp] theorem toIdle_holds (e : Ev) (d : Nat) : (Ev.toIdle e d).s.holds = e.s.holds := by
  simp only [toIdle]; (repeat' split) <;> simp
@[simp] theorem toIdle_bayLink (e : Ev) (d : Nat) : (Ev.toIdle e d).s.bayLink = e.s.bayLink := by
  simp only [toIdle]; (repeat' split) <;> simp
@[simp] theorem toIdle_pool (e : Ev) (d : Nat) : (Ev.toIdle e d).s.pool = e.s.pool := by
  simp only [toIdle]; (repeat' split) <;> simp
@[simp] theorem toIdle_groups (e : Ev) (d : Nat) : (Ev.toIdle e d).s.groups = e.s.groups := by
  simp only [toIdle]; (repeat' split) <;> simp
@[simp] theorem toIdle_lines (e : Ev) (d : Nat) : (Ev.toIdle e d).s.lines = e.s.lines := by
  simp only [toIdle]; (repeat' split) <;> simp
@[simp] theorem toIdle_strings (e : Ev) (d : Nat) : (Ev.toIdle e d).s.strings = e.s.strings := by
  simp only [toIdle]; (repeat' split) <;> simp
@[simp] theorem toIdle_budget (e : Ev) (d : Nat) : (Ev.toIdle e d).s.budget = e.s.budget := by
  simp only [toIdle]; (repeat' split) <;> simp
@[simp] theorem toIdle_notices (e : Ev) (d : Nat) : (Ev.toIdle e d).s.notices = e.s.notices := by
  simp only [toIdle]; (repeat' split) <;> simp
@[simp] theorem toIdle_path (e : Ev) (d : Nat) : (Ev.toIdle e d).s.path = e.s.path := by
  simp only [toIdle]; (repeat' split) <;> simp
@[simp] theorem recallPromises_base (e : Ev) (z : Nat) : (Ev.recallPromises e z).s.base = e.s.base := by
  simp only [recallPromises]; (repeat' split) <;> simp [State.base_mk] <;> rfl
@[simp] theorem recallPromises_bus (e : Ev) (z : Nat) : (Ev.recallPromises e z).s.bus = e.s.bus := by
  simp only [recallPromises]; (repeat' split) <;> simp [State.bus_mk] <;> rfl
@[simp] theorem recallPromises_bays (e : Ev) (z : Nat) : (Ev.recallPromises e z).s.bays = e.s.bays := by
  simp only [recallPromises]; (repeat' split) <;> simp
@[simp] theorem recallPromises_holds (e : Ev) (z : Nat) : (Ev.recallPromises e z).s.holds = e.s.holds := by
  simp only [recallPromises]; (repeat' split) <;> simp
@[simp] theorem recallPromises_bayLink (e : Ev) (z : Nat) : (Ev.recallPromises e z).s.bayLink = e.s.bayLink := by
  simp only [recallPromises]; (repeat' split) <;> simp
@[simp] theorem recallPromises_groups (e : Ev) (z : Nat) : (Ev.recallPromises e z).s.groups = e.s.groups := by
  simp only [recallPromises]; (repeat' split) <;> simp
@[simp] theorem recallPromises_lines (e : Ev) (z : Nat) : (Ev.recallPromises e z).s.lines = e.s.lines := by
  simp only [recallPromises]; (repeat' split) <;> simp
@[simp] theorem recallPromises_strings (e : Ev) (z : Nat) : (Ev.recallPromises e z).s.strings = e.s.strings := by
  simp only [recallPromises]; (repeat' split) <;> simp
@[simp] theorem recallPromises_budget (e : Ev) (z : Nat) : (Ev.recallPromises e z).s.budget = e.s.budget := by
  simp only [recallPromises]; (repeat' split) <;> simp
@[simp] theorem recallPromises_path (e : Ev) (z : Nat) : (Ev.recallPromises e z).s.path = e.s.path := by
  simp only [recallPromises]; (repeat' split) <;> simp
@[simp] theorem refreshIndicator_base (e : Ev) (b : Nat) : (Ev.refreshIndicator e b).s.base = e.s.base := by
  simp only [refreshIndicator]; (repeat' split) <;> simp [State.base_mk] <;> rfl
@[simp] theorem refreshIndicator_bus (e : Ev) (b : Nat) : (Ev.refreshIndicator e b).s.bus = e.s.bus := by
  simp only [refreshIndicator]; (repeat' split) <;> simp [State.bus_mk] <;> rfl
@[simp] theorem refreshIndicator_zones (e : Ev) (b : Nat) : (Ev.refreshIndicator e b).s.zones = e.s.zones := by
  simp only [refreshIndicator]; (repeat' split) <;> simp
@[simp] theorem refreshIndicator_holds (e : Ev) (b : Nat) : (Ev.refreshIndicator e b).s.holds = e.s.holds := by
  simp only [refreshIndicator]; (repeat' split) <;> simp
@[simp] theorem refreshIndicator_points (e : Ev) (b : Nat) : (Ev.refreshIndicator e b).s.points = e.s.points := by
  simp only [refreshIndicator]; (repeat' split) <;> simp
@[simp] theorem refreshIndicator_pool (e : Ev) (b : Nat) : (Ev.refreshIndicator e b).s.pool = e.s.pool := by
  simp only [refreshIndicator]; (repeat' split) <;> simp
@[simp] theorem refreshIndicator_groups (e : Ev) (b : Nat) : (Ev.refreshIndicator e b).s.groups = e.s.groups := by
  simp only [refreshIndicator]; (repeat' split) <;> simp
@[simp] theorem refreshIndicator_lines (e : Ev) (b : Nat) : (Ev.refreshIndicator e b).s.lines = e.s.lines := by
  simp only [refreshIndicator]; (repeat' split) <;> simp
@[simp] theorem refreshIndicator_strings (e : Ev) (b : Nat) : (Ev.refreshIndicator e b).s.strings = e.s.strings := by
  simp only [refreshIndicator]; (repeat' split) <;> simp
@[simp] theorem refreshIndicator_lampLink (e : Ev) (b : Nat) : (Ev.refreshIndicator e b).s.lampLink = e.s.lampLink := by
  simp only [refreshIndicator]; (repeat' split) <;> simp
@[simp] theorem refreshIndicator_budget (e : Ev) (b : Nat) : (Ev.refreshIndicator e b).s.budget = e.s.budget := by
  simp only [refreshIndicator]; (repeat' split) <;> simp
@[simp] theorem refreshIndicator_notices (e : Ev) (b : Nat) : (Ev.refreshIndicator e b).s.notices = e.s.notices := by
  simp only [refreshIndicator]; (repeat' split) <;> simp
@[simp] theorem refreshIndicator_path (e : Ev) (b : Nat) : (Ev.refreshIndicator e b).s.path = e.s.path := by
  simp only [refreshIndicator]; (repeat' split) <;> simp
@[simp] theorem refreshZoneIndicators_base (e : Ev) (z : Nat) : (Ev.refreshZoneIndicators e z).s.base = e.s.base := by
  simp only [refreshZoneIndicators]; (repeat' split) <;> simp [State.base_mk] <;> rfl
@[simp] theorem refreshZoneIndicators_bus (e : Ev) (z : Nat) : (Ev.refreshZoneIndicators e z).s.bus = e.s.bus := by
  simp only [refreshZoneIndicators]; (repeat' split) <;> simp [State.bus_mk] <;> rfl
@[simp] theorem refreshZoneIndicators_zones (e : Ev) (z : Nat) : (Ev.refreshZoneIndicators e z).s.zones = e.s.zones := by
  simp only [refreshZoneIndicators]; (repeat' split) <;> simp
@[simp] theorem refreshZoneIndicators_holds (e : Ev) (z : Nat) : (Ev.refreshZoneIndicators e z).s.holds = e.s.holds := by
  simp only [refreshZoneIndicators]; (repeat' split) <;> simp
@[simp] theorem refreshZoneIndicators_points (e : Ev) (z : Nat) : (Ev.refreshZoneIndicators e z).s.points = e.s.points := by
  simp only [refreshZoneIndicators]; (repeat' split) <;> simp
@[simp] theorem refreshZoneIndicators_pool (e : Ev) (z : Nat) : (Ev.refreshZoneIndicators e z).s.pool = e.s.pool := by
  simp only [refreshZoneIndicators]; (repeat' split) <;> simp
@[simp] theorem refreshZoneIndicators_groups (e : Ev) (z : Nat) : (Ev.refreshZoneIndicators e z).s.groups = e.s.groups := by
  simp only [refreshZoneIndicators]; (repeat' split) <;> simp
@[simp] theorem refreshZoneIndicators_lines (e : Ev) (z : Nat) : (Ev.refreshZoneIndicators e z).s.lines = e.s.lines := by
  simp only [refreshZoneIndicators]; (repeat' split) <;> simp
@[simp] theorem refreshZoneIndicators_strings (e : Ev) (z : Nat) : (Ev.refreshZoneIndicators e z).s.strings = e.s.strings := by
  simp only [refreshZoneIndicators]; (repeat' split) <;> simp
@[simp] theorem refreshZoneIndicators_lampLink (e : Ev) (z : Nat) : (Ev.refreshZoneIndicators e z).s.lampLink = e.s.lampLink := by
  simp only [refreshZoneIndicators]; (repeat' split) <;> simp
@[simp] theorem refreshZoneIndicators_budget (e : Ev) (z : Nat) : (Ev.refreshZoneIndicators e z).s.budget = e.s.budget := by
  simp only [refreshZoneIndicators]; (repeat' split) <;> simp
@[simp] theorem refreshZoneIndicators_notices (e : Ev) (z : Nat) : (Ev.refreshZoneIndicators e z).s.notices = e.s.notices := by
  simp only [refreshZoneIndicators]; (repeat' split) <;> simp
@[simp] theorem refreshZoneIndicators_path (e : Ev) (z : Nat) : (Ev.refreshZoneIndicators e z).s.path = e.s.path := by
  simp only [refreshZoneIndicators]; (repeat' split) <;> simp
@[simp] theorem issue_base (e : Ev) (g stage : Nat) : (Ev.issue e g stage).s.base = e.s.base := by
  simp only [issue]; rw [forEach_base _ _ _ (by intro e a; (repeat' split) <;> simp)]; simp
@[simp] theorem issue_bus (e : Ev) (g stage : Nat) : (Ev.issue e g stage).s.bus = e.s.bus := by
  simp only [issue]; rw [forEach_bus _ _ _ (by intro e a; (repeat' split) <;> simp)]; simp
@[simp] theorem issue_zones (e : Ev) (g stage : Nat) : (Ev.issue e g stage).s.zones = e.s.zones := by
  simp only [issue]; rw [forEach_zones _ _ _ (by intro e a; (repeat' split) <;> simp)]; simp
@[simp] theorem issue_bays (e : Ev) (g stage : Nat) : (Ev.issue e g stage).s.bays = e.s.bays := by
  simp only [issue]; rw [forEach_bays _ _ _ (by intro e a; (repeat' split) <;> simp)]; simp
@[simp] theorem issue_holds (e : Ev) (g stage : Nat) : (Ev.issue e g stage).s.holds = e.s.holds := by
  simp only [issue]; rw [forEach_holds _ _ _ (by intro e a; (repeat' split) <;> simp)]; simp
@[simp] theorem issue_bayLink (e : Ev) (g stage : Nat) : (Ev.issue e g stage).s.bayLink = e.s.bayLink := by
  simp only [issue]; rw [forEach_bayLink _ _ _ (by intro e a; (repeat' split) <;> simp)]; simp
@[simp] theorem issue_points (e : Ev) (g stage : Nat) : (Ev.issue e g stage).s.points = e.s.points := by
  simp only [issue]; rw [forEach_points _ _ _ (by intro e a; (repeat' split) <;> simp)]; simp
@[simp] theorem issue_pool (e : Ev) (g stage : Nat) : (Ev.issue e g stage).s.pool = e.s.pool := by
  simp only [issue]; rw [forEach_pool _ _ _ (by intro e a; (repeat' split) <;> simp)]; simp
@[simp] theorem issue_strings (e : Ev) (g stage : Nat) : (Ev.issue e g stage).s.strings = e.s.strings := by
  simp only [issue]; rw [forEach_strings _ _ _ (by intro e a; (repeat' split) <;> simp)]; simp
@[simp] theorem issue_lampLink (e : Ev) (g stage : Nat) : (Ev.issue e g stage).s.lampLink = e.s.lampLink := by
  simp only [issue]; rw [forEach_lampLink _ _ _ (by intro e a; (repeat' split) <;> simp)]; simp
@[simp] theorem issue_budget (e : Ev) (g stage : Nat) : (Ev.issue e g stage).s.budget = e.s.budget := by
  simp only [issue]; rw [forEach_budget _ _ _ (by intro e a; (repeat' split) <;> simp)]; simp
@[simp] theorem issue_notices (e : Ev) (g stage : Nat) : (Ev.issue e g stage).s.notices = e.s.notices := by
  simp only [issue]; rw [forEach_notices _ _ _ (by intro e a; (repeat' split) <;> simp)]; simp
@[simp] theorem issue_path (e : Ev) (g stage : Nat) : (Ev.issue e g stage).s.path = e.s.path := by
  simp only [issue]; rw [forEach_path _ _ _ (by intro e a; (repeat' split) <;> simp)]; simp
@[simp] theorem issueNext_base (e : Ev) (g : Nat) : (Ev.issueNext e g).s.base = e.s.base := by
  simp only [issueNext]; (repeat' split) <;> simp [State.base_mk] <;> rfl
@[simp] theorem issueNext_bus (e : Ev) (g : Nat) : (Ev.issueNext e g).s.bus = e.s.bus := by
  simp only [issueNext]; (repeat' split) <;> simp [State.bus_mk] <;> rfl
@[simp] theorem issueNext_zones (e : Ev) (g : Nat) : (Ev.issueNext e g).s.zones = e.s.zones := by
  simp only [issueNext]; (repeat' split) <;> simp
@[simp] theorem issueNext_bays (e : Ev) (g : Nat) : (Ev.issueNext e g).s.bays = e.s.bays := by
  simp only [issueNext]; (repeat' split) <;> simp
@[simp] theorem issueNext_holds (e : Ev) (g : Nat) : (Ev.issueNext e g).s.holds = e.s.holds := by
  simp only [issueNext]; (repeat' split) <;> simp
@[simp] theorem issueNext_bayLink (e : Ev) (g : Nat) : (Ev.issueNext e g).s.bayLink = e.s.bayLink := by
  simp only [issueNext]; (repeat' split) <;> simp
@[simp] theorem issueNext_points (e : Ev) (g : Nat) : (Ev.issueNext e g).s.points = e.s.points := by
  simp only [issueNext]; (repeat' split) <;> simp
@[simp] theorem issueNext_pool (e : Ev) (g : Nat) : (Ev.issueNext e g).s.pool = e.s.pool := by
  simp only [issueNext]; (repeat' split) <;> simp
@[simp] theorem issueNext_strings (e : Ev) (g : Nat) : (Ev.issueNext e g).s.strings = e.s.strings := by
  simp only [issueNext]; (repeat' split) <;> simp
@[simp] theorem issueNext_lampLink (e : Ev) (g : Nat) : (Ev.issueNext e g).s.lampLink = e.s.lampLink := by
  simp only [issueNext]; (repeat' split) <;> simp
@[simp] theorem issueNext_budget (e : Ev) (g : Nat) : (Ev.issueNext e g).s.budget = e.s.budget := by
  simp only [issueNext]; (repeat' split) <;> simp
@[simp] theorem issueNext_notices (e : Ev) (g : Nat) : (Ev.issueNext e g).s.notices = e.s.notices := by
  simp only [issueNext]; (repeat' split) <;> simp
@[simp] theorem issueNext_path (e : Ev) (g : Nat) : (Ev.issueNext e g).s.path = e.s.path := by
  simp only [issueNext]; (repeat' split) <;> simp
@[simp] theorem recomposeP_base (e : Ev) (g : Nat) : (Ev.recomposeP e g).s.base = e.s.base := by
  simp only [recomposeP]; (repeat' split) <;> simp [State.base_mk] <;> rfl
@[simp] theorem recomposeP_bus (e : Ev) (g : Nat) : (Ev.recomposeP e g).s.bus = e.s.bus := by
  simp only [recomposeP]; (repeat' split) <;> simp [State.bus_mk] <;> rfl
@[simp] theorem recomposeP_zones (e : Ev) (g : Nat) : (Ev.recomposeP e g).s.zones = e.s.zones := by
  simp only [recomposeP]; (repeat' split) <;> simp
@[simp] theorem recomposeP_bays (e : Ev) (g : Nat) : (Ev.recomposeP e g).s.bays = e.s.bays := by
  simp only [recomposeP]; (repeat' split) <;> simp
@[simp] theorem recomposeP_holds (e : Ev) (g : Nat) : (Ev.recomposeP e g).s.holds = e.s.holds := by
  simp only [recomposeP]; (repeat' split) <;> simp
@[simp] theorem recomposeP_bayLink (e : Ev) (g : Nat) : (Ev.recomposeP e g).s.bayLink = e.s.bayLink := by
  simp only [recomposeP]; (repeat' split) <;> simp
@[simp] theorem recomposeP_points (e : Ev) (g : Nat) : (Ev.recomposeP e g).s.points = e.s.points := by
  simp only [recomposeP]; (repeat' split) <;> simp
@[simp] theorem recomposeP_pool (e : Ev) (g : Nat) : (Ev.recomposeP e g).s.pool = e.s.pool := by
  simp only [recomposeP]; (repeat' split) <;> simp
@[simp] theorem recomposeP_lines (e : Ev) (g : Nat) : (Ev.recomposeP e g).s.lines = e.s.lines := by
  simp only [recomposeP]; (repeat' split) <;> simp
@[simp] theorem recomposeP_strings (e : Ev) (g : Nat) : (Ev.recomposeP e g).s.strings = e.s.strings := by
  simp only [recomposeP]; (repeat' split) <;> simp
@[simp] theorem recomposeP_lampLink (e : Ev) (g : Nat) : (Ev.recomposeP e g).s.lampLink = e.s.lampLink := by
  simp only [recomposeP]; (repeat' split) <;> simp
@[simp] theorem recomposeP_budget (e : Ev) (g : Nat) : (Ev.recomposeP e g).s.budget = e.s.budget := by
  simp only [recomposeP]; (repeat' split) <;> simp
@[simp] theorem recomposeP_notices (e : Ev) (g : Nat) : (Ev.recomposeP e g).s.notices = e.s.notices := by
  simp only [recomposeP]; (repeat' split) <;> simp
@[simp] theorem recomposeP_path (e : Ev) (g : Nat) : (Ev.recomposeP e g).s.path = e.s.path := by
  simp only [recomposeP]; (repeat' split) <;> simp
@[simp] theorem recomposeQ_base (e : Ev) (g : Nat) : (Ev.recomposeQ e g).s.base = e.s.base := by
  simp only [recomposeQ]; (repeat' split) <;> simp [State.base_mk] <;> rfl
@[simp] theorem recomposeQ_bus (e : Ev) (g : Nat) : (Ev.recomposeQ e g).s.bus = e.s.bus := by
  simp only [recomposeQ]; (repeat' split) <;> simp [State.bus_mk] <;> rfl
@[simp] theorem recomposeQ_zones (e : Ev) (g : Nat) : (Ev.recomposeQ e g).s.zones = e.s.zones := by
  simp only [recomposeQ]; (repeat' split) <;> simp
@[simp] theorem recomposeQ_bays (e : Ev) (g : Nat) : (Ev.recomposeQ e g).s.bays = e.s.bays := by
  simp only [recomposeQ]; (repeat' split) <;> simp
@[simp] theorem recomposeQ_holds (e : Ev) (g : Nat) : (Ev.recomposeQ e g).s.holds = e.s.holds := by
  simp only [recomposeQ]; (repeat' split) <;> simp
@[simp] theorem recomposeQ_bayLink (e : Ev) (g : Nat) : (Ev.recomposeQ e g).s.bayLink = e.s.bayLink := by
  simp only [recomposeQ]; (repeat' split) <;> simp
@[simp] theorem recomposeQ_points (e : Ev) (g : Nat) : (Ev.recomposeQ e g).s.points = e.s.points := by
  simp only [recomposeQ]; (repeat' split) <;> simp
@[simp] theorem recomposeQ_pool (e : Ev) (g : Nat) : (Ev.recomposeQ e g).s.pool = e.s.pool := by
  simp only [recomposeQ]; (repeat' split) <;> simp
@[simp] theorem recomposeQ_lines (e : Ev) (g : Nat) : (Ev.recomposeQ e g).s.lines = e.s.lines := by
  simp only [recomposeQ]; (repeat' split) <;> simp
@[simp] theorem recomposeQ_strings (e : Ev) (g : Nat) : (Ev.recomposeQ e g).s.strings = e.s.strings := by
  simp only [recomposeQ]; (repeat' split) <;> simp
@[simp] theorem recomposeQ_lampLink (e : Ev) (g : Nat) : (Ev.recomposeQ e g).s.lampLink = e.s.lampLink := by
  simp only [recomposeQ]; (repeat' split) <;> simp
@[simp] theorem recomposeQ_budget (e : Ev) (g : Nat) : (Ev.recomposeQ e g).s.budget = e.s.budget := by
  simp only [recomposeQ]; (repeat' split) <;> simp
@[simp] theorem recomposeQ_notices (e : Ev) (g : Nat) : (Ev.recomposeQ e g).s.notices = e.s.notices := by
  simp only [recomposeQ]; (repeat' split) <;> simp
@[simp] theorem recomposeQ_path (e : Ev) (g : Nat) : (Ev.recomposeQ e g).s.path = e.s.path := by
  simp only [recomposeQ]; (repeat' split) <;> simp
@[simp] theorem takeGrant_base (e : Ev) (g : Nat) : (Ev.takeGrant e g).s.base = e.s.base := by
  simp only [takeGrant]; (repeat' split) <;> simp [State.base_mk] <;> rfl
@[simp] theorem takeGrant_bus (e : Ev) (g : Nat) : (Ev.takeGrant e g).s.bus = e.s.bus := by
  simp only [takeGrant]; (repeat' split) <;> simp [State.bus_mk] <;> rfl
@[simp] theorem takeGrant_zones (e : Ev) (g : Nat) : (Ev.takeGrant e g).s.zones = e.s.zones := by
  simp only [takeGrant]; (repeat' split) <;> simp
@[simp] theorem takeGrant_bays (e : Ev) (g : Nat) : (Ev.takeGrant e g).s.bays = e.s.bays := by
  simp only [takeGrant]; (repeat' split) <;> simp
@[simp] theorem takeGrant_holds (e : Ev) (g : Nat) : (Ev.takeGrant e g).s.holds = e.s.holds := by
  simp only [takeGrant]; (repeat' split) <;> simp
@[simp] theorem takeGrant_bayLink (e : Ev) (g : Nat) : (Ev.takeGrant e g).s.bayLink = e.s.bayLink := by
  simp only [takeGrant]; (repeat' split) <;> simp
@[simp] theorem takeGrant_points (e : Ev) (g : Nat) : (Ev.takeGrant e g).s.points = e.s.points := by
  simp only [takeGrant]; (repeat' split) <;> simp
@[simp] theorem takeGrant_pool (e : Ev) (g : Nat) : (Ev.takeGrant e g).s.pool = e.s.pool := by
  simp only [takeGrant]; (repeat' split) <;> simp
@[simp] theorem takeGrant_strings (e : Ev) (g : Nat) : (Ev.takeGrant e g).s.strings = e.s.strings := by
  simp only [takeGrant]; (repeat' split) <;> simp
@[simp] theorem takeGrant_lampLink (e : Ev) (g : Nat) : (Ev.takeGrant e g).s.lampLink = e.s.lampLink := by
  simp only [takeGrant]; (repeat' split) <;> simp
@[simp] theorem takeGrant_budget (e : Ev) (g : Nat) : (Ev.takeGrant e g).s.budget = e.s.budget := by
  simp only [takeGrant]; (repeat' split) <;> simp
@[simp] theorem takeGrant_notices (e : Ev) (g : Nat) : (Ev.takeGrant e g).s.notices = e.s.notices := by
  simp only [takeGrant]; (repeat' split) <;> simp
@[simp] theorem takeGrant_path (e : Ev) (g : Nat) : (Ev.takeGrant e g).s.path = e.s.path := by
  simp only [takeGrant]; (repeat' split) <;> simp
@[simp] theorem deriveOverride_base (e : Ev) (k : Nat) : (Ev.deriveOverride e k).s.base = e.s.base := by
  simp only [deriveOverride]; (repeat' split) <;> simp [State.base_mk] <;> rfl
@[simp] theorem deriveOverride_bus (e : Ev) (k : Nat) : (Ev.deriveOverride e k).s.bus = e.s.bus := by
  simp only [deriveOverride]; (repeat' split) <;> simp [State.bus_mk] <;> rfl
@[simp] theorem deriveOverride_zones (e : Ev) (k : Nat) : (Ev.deriveOverride e k).s.zones = e.s.zones := by
  simp only [deriveOverride]; (repeat' split) <;> simp
@[simp] theorem deriveOverride_bays (e : Ev) (k : Nat) : (Ev.deriveOverride e k).s.bays = e.s.bays := by
  simp only [deriveOverride]; (repeat' split) <;> simp
@[simp] theorem deriveOverride_holds (e : Ev) (k : Nat) : (Ev.deriveOverride e k).s.holds = e.s.holds := by
  simp only [deriveOverride]; (repeat' split) <;> simp
@[simp] theorem deriveOverride_bayLink (e : Ev) (k : Nat) : (Ev.deriveOverride e k).s.bayLink = e.s.bayLink := by
  simp only [deriveOverride]; (repeat' split) <;> simp
@[simp] theorem deriveOverride_points (e : Ev) (k : Nat) : (Ev.deriveOverride e k).s.points = e.s.points := by
  simp only [deriveOverride]; (repeat' split) <;> simp
@[simp] theorem deriveOverride_pool (e : Ev) (k : Nat) : (Ev.deriveOverride e k).s.pool = e.s.pool := by
  simp only [deriveOverride]; (repeat' split) <;> simp
@[simp] theorem deriveOverride_groups (e : Ev) (k : Nat) : (Ev.deriveOverride e k).s.groups = e.s.groups := by
  simp only [deriveOverride]; (repeat' split) <;> simp
@[simp] theorem deriveOverride_lines (e : Ev) (k : Nat) : (Ev.deriveOverride e k).s.lines = e.s.lines := by
  simp only [deriveOverride]; (repeat' split) <;> simp
@[simp] theorem deriveOverride_budget (e : Ev) (k : Nat) : (Ev.deriveOverride e k).s.budget = e.s.budget := by
  simp only [deriveOverride]; (repeat' split) <;> simp
@[simp] theorem deriveOverride_notices (e : Ev) (k : Nat) : (Ev.deriveOverride e k).s.notices = e.s.notices := by
  simp only [deriveOverride]; (repeat' split) <;> simp
@[simp] theorem deriveOverride_path (e : Ev) (k : Nat) : (Ev.deriveOverride e k).s.path = e.s.path := by
  simp only [deriveOverride]; (repeat' split) <;> simp
@[simp] theorem boost_base (e : Ev) (k p : Nat) : (Ev.boost e k p).s.base = e.s.base := by
  simp only [boost]; (repeat' split) <;> simp [State.base_mk] <;> rfl
@[simp] theorem boost_bus (e : Ev) (k p : Nat) : (Ev.boost e k p).s.bus = e.s.bus := by
  simp only [boost]; (repeat' split) <;> simp [State.bus_mk] <;> rfl
@[simp] theorem boost_zones (e : Ev) (k p : Nat) : (Ev.boost e k p).s.zones = e.s.zones := by
  simp only [boost]; (repeat' split) <;> simp
@[simp] theorem boost_bays (e : Ev) (k p : Nat) : (Ev.boost e k p).s.bays = e.s.bays := by
  simp only [boost]; (repeat' split) <;> simp
@[simp] theorem boost_holds (e : Ev) (k p : Nat) : (Ev.boost e k p).s.holds = e.s.holds := by
  simp only [boost]; (repeat' split) <;> simp
@[simp] theorem boost_bayLink (e : Ev) (k p : Nat) : (Ev.boost e k p).s.bayLink = e.s.bayLink := by
  simp only [boost]; (repeat' split) <;> simp
@[simp] theorem boost_points (e : Ev) (k p : Nat) : (Ev.boost e k p).s.points = e.s.points := by
  simp only [boost]; (repeat' split) <;> simp
@[simp] theorem boost_pool (e : Ev) (k p : Nat) : (Ev.boost e k p).s.pool = e.s.pool := by
  simp only [boost]; (repeat' split) <;> simp
@[simp] theorem boost_groups (e : Ev) (k p : Nat) : (Ev.boost e k p).s.groups = e.s.groups := by
  simp only [boost]; (repeat' split) <;> simp
@[simp] theorem boost_lines (e : Ev) (k p : Nat) : (Ev.boost e k p).s.lines = e.s.lines := by
  simp only [boost]; (repeat' split) <;> simp
@[simp] theorem boost_lampLink (e : Ev) (k p : Nat) : (Ev.boost e k p).s.lampLink = e.s.lampLink := by
  simp only [boost]; (repeat' split) <;> simp
@[simp] theorem boost_budget (e : Ev) (k p : Nat) : (Ev.boost e k p).s.budget = e.s.budget := by
  simp only [boost]; (repeat' split) <;> simp
@[simp] theorem boost_notices (e : Ev) (k p : Nat) : (Ev.boost e k p).s.notices = e.s.notices := by
  simp only [boost]; (repeat' split) <;> simp
@[simp] theorem boost_path (e : Ev) (k p : Nat) : (Ev.boost e k p).s.path = e.s.path := by
  simp only [boost]; (repeat' split) <;> simp
@[simp] theorem handRest_base (e : Ev) (z : Nat) : (Ev.handRest e z).s.base = e.s.base := by
  simp only [handRest]; rw [forEach_base _ _ _ (by intro e a; (repeat' split) <;> simp)]; simp
@[simp] theorem handRest_bus (e : Ev) (z : Nat) : (Ev.handRest e z).s.bus = e.s.bus := by
  simp only [handRest]; rw [forEach_bus _ _ _ (by intro e a; (repeat' split) <;> simp)]; simp
@[simp] theorem handRest_zones (e : Ev) (z : Nat) : (Ev.handRest e z).s.zones = e.s.zones := by
  simp only [handRest]; rw [forEach_zones _ _ _ (by intro e a; (repeat' split) <;> simp)]; simp
@[simp] theorem handRest_bays (e : Ev) (z : Nat) : (Ev.handRest e z).s.bays = e.s.bays := by
  simp only [handRest]; rw [forEach_bays _ _ _ (by intro e a; (repeat' split) <;> simp)]; simp
@[simp] theorem handRest_holds (e : Ev) (z : Nat) : (Ev.handRest e z).s.holds = e.s.holds := by
  simp only [handRest]; rw [forEach_holds _ _ _ (by intro e a; (repeat' split) <;> simp)]; simp
@[simp] theorem handRest_bayLink (e : Ev) (z : Nat) : (Ev.handRest e z).s.bayLink = e.s.bayLink := by
  simp only [handRest]; rw [forEach_bayLink _ _ _ (by intro e a; (repeat' split) <;> simp)]; simp
@[simp] theorem handRest_points (e : Ev) (z : Nat) : (Ev.handRest e z).s.points = e.s.points := by
  simp only [handRest]; rw [forEach_points _ _ _ (by intro e a; (repeat' split) <;> simp)]; simp
@[simp] theorem handRest_pool (e : Ev) (z : Nat) : (Ev.handRest e z).s.pool = e.s.pool := by
  simp only [handRest]; rw [forEach_pool _ _ _ (by intro e a; (repeat' split) <;> simp)]; simp
@[simp] theorem handRest_lines (e : Ev) (z : Nat) : (Ev.handRest e z).s.lines = e.s.lines := by
  simp only [handRest]; rw [forEach_lines _ _ _ (by intro e a; (repeat' split) <;> simp)]; simp
@[simp] theorem handRest_lampLink (e : Ev) (z : Nat) : (Ev.handRest e z).s.lampLink = e.s.lampLink := by
  simp only [handRest]; rw [forEach_lampLink _ _ _ (by intro e a; (repeat' split) <;> simp)]; simp
@[simp] theorem handRest_budget (e : Ev) (z : Nat) : (Ev.handRest e z).s.budget = e.s.budget := by
  simp only [handRest]; rw [forEach_budget _ _ _ (by intro e a; (repeat' split) <;> simp)]; simp
@[simp] theorem handRest_notices (e : Ev) (z : Nat) : (Ev.handRest e z).s.notices = e.s.notices := by
  simp only [handRest]; rw [forEach_notices _ _ _ (by intro e a; (repeat' split) <;> simp)]; simp
@[simp] theorem handRest_path (e : Ev) (z : Nat) : (Ev.handRest e z).s.path = e.s.path := by
  simp only [handRest]; rw [forEach_path _ _ _ (by intro e a; (repeat' split) <;> simp)]; simp
@[simp] theorem startQuiet_base (e : Ev) (z : Nat) : (Ev.startQuiet e z).s.base = e.s.base := by
  simp only [startQuiet]; (repeat' split) <;> simp [State.base_mk] <;> rfl
@[simp] theorem startQuiet_bus (e : Ev) (z : Nat) : (Ev.startQuiet e z).s.bus = e.s.bus := by
  simp only [startQuiet]; (repeat' split) <;> simp [State.bus_mk] <;> rfl
@[simp] theorem startQuiet_bays (e : Ev) (z : Nat) : (Ev.startQuiet e z).s.bays = e.s.bays := by
  simp only [startQuiet]; (repeat' split) <;> simp
@[simp] theorem startQuiet_holds (e : Ev) (z : Nat) : (Ev.startQuiet e z).s.holds = e.s.holds := by
  simp only [startQuiet]; (repeat' split) <;> simp
@[simp] theorem startQuiet_bayLink (e : Ev) (z : Nat) : (Ev.startQuiet e z).s.bayLink = e.s.bayLink := by
  simp only [startQuiet]; (repeat' split) <;> simp
@[simp] theorem startQuiet_points (e : Ev) (z : Nat) : (Ev.startQuiet e z).s.points = e.s.points := by
  simp only [startQuiet]; (repeat' split) <;> simp
@[simp] theorem startQuiet_pool (e : Ev) (z : Nat) : (Ev.startQuiet e z).s.pool = e.s.pool := by
  simp only [startQuiet]; (repeat' split) <;> simp
@[simp] theorem startQuiet_groups (e : Ev) (z : Nat) : (Ev.startQuiet e z).s.groups = e.s.groups := by
  simp only [startQuiet]; (repeat' split) <;> simp
@[simp] theorem startQuiet_lines (e : Ev) (z : Nat) : (Ev.startQuiet e z).s.lines = e.s.lines := by
  simp only [startQuiet]; (repeat' split) <;> simp
@[simp] theorem startQuiet_strings (e : Ev) (z : Nat) : (Ev.startQuiet e z).s.strings = e.s.strings := by
  simp only [startQuiet]; (repeat' split) <;> simp
@[simp] theorem startQuiet_lampLink (e : Ev) (z : Nat) : (Ev.startQuiet e z).s.lampLink = e.s.lampLink := by
  simp only [startQuiet]; (repeat' split) <;> simp
@[simp] theorem startQuiet_budget (e : Ev) (z : Nat) : (Ev.startQuiet e z).s.budget = e.s.budget := by
  simp only [startQuiet]; (repeat' split) <;> simp
@[simp] theorem startQuiet_notices (e : Ev) (z : Nat) : (Ev.startQuiet e z).s.notices = e.s.notices := by
  simp only [startQuiet]; (repeat' split) <;> simp
@[simp] theorem startQuiet_path (e : Ev) (z : Nat) : (Ev.startQuiet e z).s.path = e.s.path := by
  simp only [startQuiet]; (repeat' split) <;> simp
@[simp] theorem wakeZone_base (e : Ev) (z : Nat) (wake : Wake) : (Ev.wakeZone e z wake).s.base = e.s.base := by
  simp only [wakeZone]; (repeat' split) <;> simp [State.base_mk] <;> rfl
@[simp] theorem wakeZone_bus (e : Ev) (z : Nat) (wake : Wake) : (Ev.wakeZone e z wake).s.bus = e.s.bus := by
  simp only [wakeZone]; (repeat' split) <;> simp [State.bus_mk] <;> rfl
@[simp] theorem wakeZone_bays (e : Ev) (z : Nat) (wake : Wake) : (Ev.wakeZone e z wake).s.bays = e.s.bays := by
  simp only [wakeZone]; (repeat' split) <;> simp
@[simp] theorem wakeZone_holds (e : Ev) (z : Nat) (wake : Wake) : (Ev.wakeZone e z wake).s.holds = e.s.holds := by
  simp only [wakeZone]; (repeat' split) <;> simp
@[simp] theorem wakeZone_bayLink (e : Ev) (z : Nat) (wake : Wake) : (Ev.wakeZone e z wake).s.bayLink = e.s.bayLink := by
  simp only [wakeZone]; (repeat' split) <;> simp
@[simp] theorem wakeZone_points (e : Ev) (z : Nat) (wake : Wake) : (Ev.wakeZone e z wake).s.points = e.s.points := by
  simp only [wakeZone]; (repeat' split) <;> simp
@[simp] theorem wakeZone_pool (e : Ev) (z : Nat) (wake : Wake) : (Ev.wakeZone e z wake).s.pool = e.s.pool := by
  simp only [wakeZone]; (repeat' split) <;> simp
@[simp] theorem wakeZone_lines (e : Ev) (z : Nat) (wake : Wake) : (Ev.wakeZone e z wake).s.lines = e.s.lines := by
  simp only [wakeZone]; (repeat' split) <;> simp
@[simp] theorem wakeZone_lampLink (e : Ev) (z : Nat) (wake : Wake) : (Ev.wakeZone e z wake).s.lampLink = e.s.lampLink := by
  simp only [wakeZone]; (repeat' split) <;> simp
@[simp] theorem wakeZone_budget (e : Ev) (z : Nat) (wake : Wake) : (Ev.wakeZone e z wake).s.budget = e.s.budget := by
  simp only [wakeZone]; (repeat' split) <;> simp
@[simp] theorem wakeZone_notices (e : Ev) (z : Nat) (wake : Wake) : (Ev.wakeZone e z wake).s.notices = e.s.notices := by
  simp only [wakeZone]; (repeat' split) <;> simp
@[simp] theorem wakeZone_path (e : Ev) (z : Nat) (wake : Wake) : (Ev.wakeZone e z wake).s.path = e.s.path := by
  simp only [wakeZone]; (repeat' split) <;> simp
@[simp] theorem activity_base (e : Ev) (z : Nat) (wake : Wake) : (Ev.activity e z wake).s.base = e.s.base := by
  simp only [activity]; (repeat' split) <;> simp [State.base_mk] <;> rfl
@[simp] theorem activity_bus (e : Ev) (z : Nat) (wake : Wake) : (Ev.activity e z wake).s.bus = e.s.bus := by
  simp only [activity]; (repeat' split) <;> simp [State.bus_mk] <;> rfl
@[simp] theorem activity_bays (e : Ev) (z : Nat) (wake : Wake) : (Ev.activity e z wake).s.bays = e.s.bays := by
  simp only [activity]; (repeat' split) <;> simp
@[simp] theorem activity_holds (e : Ev) (z : Nat) (wake : Wake) : (Ev.activity e z wake).s.holds = e.s.holds := by
  simp only [activity]; (repeat' split) <;> simp
@[simp] theorem activity_bayLink (e : Ev) (z : Nat) (wake : Wake) : (Ev.activity e z wake).s.bayLink = e.s.bayLink := by
  simp only [activity]; (repeat' split) <;> simp
@[simp] theorem activity_points (e : Ev) (z : Nat) (wake : Wake) : (Ev.activity e z wake).s.points = e.s.points := by
  simp only [activity]; (repeat' split) <;> simp
@[simp] theorem activity_pool (e : Ev) (z : Nat) (wake : Wake) : (Ev.activity e z wake).s.pool = e.s.pool := by
  simp only [activity]; (repeat' split) <;> simp
@[simp] theorem activity_lines (e : Ev) (z : Nat) (wake : Wake) : (Ev.activity e z wake).s.lines = e.s.lines := by
  simp only [activity]; (repeat' split) <;> simp
@[simp] theorem activity_lampLink (e : Ev) (z : Nat) (wake : Wake) : (Ev.activity e z wake).s.lampLink = e.s.lampLink := by
  simp only [activity]; (repeat' split) <;> simp
@[simp] theorem activity_budget (e : Ev) (z : Nat) (wake : Wake) : (Ev.activity e z wake).s.budget = e.s.budget := by
  simp only [activity]; (repeat' split) <;> simp
@[simp] theorem activity_notices (e : Ev) (z : Nat) (wake : Wake) : (Ev.activity e z wake).s.notices = e.s.notices := by
  simp only [activity]; (repeat' split) <;> simp
@[simp] theorem activity_path (e : Ev) (z : Nat) (wake : Wake) : (Ev.activity e z wake).s.path = e.s.path := by
  simp only [activity]; (repeat' split) <;> simp
@[simp] theorem restZone_base (e : Ev) (z : Nat) (rest : Rest) : (Ev.restZone e z rest).s.base = e.s.base := by
  simp only [restZone]; (repeat' split) <;> simp [State.base_mk] <;> rfl
@[simp] theorem restZone_bus (e : Ev) (z : Nat) (rest : Rest) : (Ev.restZone e z rest).s.bus = e.s.bus := by
  simp only [restZone]; (repeat' split) <;> simp [State.bus_mk] <;> rfl
@[simp] theorem restZone_bays (e : Ev) (z : Nat) (rest : Rest) : (Ev.restZone e z rest).s.bays = e.s.bays := by
  simp only [restZone]; (repeat' split) <;> simp
@[simp] theorem restZone_holds (e : Ev) (z : Nat) (rest : Rest) : (Ev.restZone e z rest).s.holds = e.s.holds := by
  simp only [restZone]; (repeat' split) <;> simp
@[simp] theorem restZone_bayLink (e : Ev) (z : Nat) (rest : Rest) : (Ev.restZone e z rest).s.bayLink = e.s.bayLink := by
  simp only [restZone]; (repeat' split) <;> simp
@[simp] theorem restZone_points (e : Ev) (z : Nat) (rest : Rest) : (Ev.restZone e z rest).s.points = e.s.points := by
  simp only [restZone]; (repeat' split) <;> simp
@[simp] theorem restZone_pool (e : Ev) (z : Nat) (rest : Rest) : (Ev.restZone e z rest).s.pool = e.s.pool := by
  simp only [restZone]; (repeat' split) <;> simp
@[simp] theorem restZone_lines (e : Ev) (z : Nat) (rest : Rest) : (Ev.restZone e z rest).s.lines = e.s.lines := by
  simp only [restZone]; (repeat' split) <;> simp
@[simp] theorem restZone_lampLink (e : Ev) (z : Nat) (rest : Rest) : (Ev.restZone e z rest).s.lampLink = e.s.lampLink := by
  simp only [restZone]; (repeat' split) <;> simp
@[simp] theorem restZone_budget (e : Ev) (z : Nat) (rest : Rest) : (Ev.restZone e z rest).s.budget = e.s.budget := by
  simp only [restZone]; (repeat' split) <;> simp
@[simp] theorem restZone_notices (e : Ev) (z : Nat) (rest : Rest) : (Ev.restZone e z rest).s.notices = e.s.notices := by
  simp only [restZone]; (repeat' split) <;> simp
@[simp] theorem restZone_path (e : Ev) (z : Nat) (rest : Rest) : (Ev.restZone e z rest).s.path = e.s.path := by
  simp only [restZone]; (repeat' split) <;> simp
@[simp] theorem rederiveAccess_base (e : Ev) (z : Nat) : (Ev.rederiveAccess e z).s.base = e.s.base := by
  simp only [rederiveAccess]; (repeat' split) <;> simp [State.base_mk] <;> rfl
@[simp] theorem rederiveAccess_bus (e : Ev) (z : Nat) : (Ev.rederiveAccess e z).s.bus = e.s.bus := by
  simp only [rederiveAccess]; (repeat' split) <;> simp [State.bus_mk] <;> rfl
@[simp] theorem rederiveAccess_holds (e : Ev) (z : Nat) : (Ev.rederiveAccess e z).s.holds = e.s.holds := by
  simp only [rederiveAccess]; (repeat' split) <;> simp
@[simp] theorem rederiveAccess_groups (e : Ev) (z : Nat) : (Ev.rederiveAccess e z).s.groups = e.s.groups := by
  simp only [rederiveAccess]; (repeat' split) <;> simp
@[simp] theorem rederiveAccess_lines (e : Ev) (z : Nat) : (Ev.rederiveAccess e z).s.lines = e.s.lines := by
  simp only [rederiveAccess]; (repeat' split) <;> simp
@[simp] theorem rederiveAccess_strings (e : Ev) (z : Nat) : (Ev.rederiveAccess e z).s.strings = e.s.strings := by
  simp only [rederiveAccess]; (repeat' split) <;> simp
@[simp] theorem rederiveAccess_budget (e : Ev) (z : Nat) : (Ev.rederiveAccess e z).s.budget = e.s.budget := by
  simp only [rederiveAccess]; (repeat' split) <;> simp
@[simp] theorem rederiveAccess_path (e : Ev) (z : Nat) : (Ev.rederiveAccess e z).s.path = e.s.path := by
  simp only [rederiveAccess]; (repeat' split) <;> simp
@[simp] theorem moveCount_base (e : Ev) (z : Nat) (before after : Slot) : (Ev.moveCount e z before after).s.base = e.s.base := by
  simp only [moveCount]; (repeat' split) <;> simp [State.base_mk] <;> rfl
@[simp] theorem moveCount_bus (e : Ev) (z : Nat) (before after : Slot) : (Ev.moveCount e z before after).s.bus = e.s.bus := by
  simp only [moveCount]; (repeat' split) <;> simp [State.bus_mk] <;> rfl
@[simp] theorem moveCount_bays (e : Ev) (z : Nat) (before after : Slot) : (Ev.moveCount e z before after).s.bays = e.s.bays := by
  simp only [moveCount]; (repeat' split) <;> simp
@[simp] theorem moveCount_holds (e : Ev) (z : Nat) (before after : Slot) : (Ev.moveCount e z before after).s.holds = e.s.holds := by
  simp only [moveCount]; (repeat' split) <;> simp
@[simp] theorem moveCount_bayLink (e : Ev) (z : Nat) (before after : Slot) : (Ev.moveCount e z before after).s.bayLink = e.s.bayLink := by
  simp only [moveCount]; (repeat' split) <;> simp
@[simp] theorem moveCount_points (e : Ev) (z : Nat) (before after : Slot) : (Ev.moveCount e z before after).s.points = e.s.points := by
  simp only [moveCount]; (repeat' split) <;> simp
@[simp] theorem moveCount_pool (e : Ev) (z : Nat) (before after : Slot) : (Ev.moveCount e z before after).s.pool = e.s.pool := by
  simp only [moveCount]; (repeat' split) <;> simp
@[simp] theorem moveCount_groups (e : Ev) (z : Nat) (before after : Slot) : (Ev.moveCount e z before after).s.groups = e.s.groups := by
  simp only [moveCount]; (repeat' split) <;> simp
@[simp] theorem moveCount_lines (e : Ev) (z : Nat) (before after : Slot) : (Ev.moveCount e z before after).s.lines = e.s.lines := by
  simp only [moveCount]; (repeat' split) <;> simp
@[simp] theorem moveCount_strings (e : Ev) (z : Nat) (before after : Slot) : (Ev.moveCount e z before after).s.strings = e.s.strings := by
  simp only [moveCount]; (repeat' split) <;> simp
@[simp] theorem moveCount_lampLink (e : Ev) (z : Nat) (before after : Slot) : (Ev.moveCount e z before after).s.lampLink = e.s.lampLink := by
  simp only [moveCount]; (repeat' split) <;> simp
@[simp] theorem moveCount_budget (e : Ev) (z : Nat) (before after : Slot) : (Ev.moveCount e z before after).s.budget = e.s.budget := by
  simp only [moveCount]; (repeat' split) <;> simp
@[simp] theorem moveCount_notices (e : Ev) (z : Nat) (before after : Slot) : (Ev.moveCount e z before after).s.notices = e.s.notices := by
  simp only [moveCount]; (repeat' split) <;> simp
@[simp] theorem moveCount_path (e : Ev) (z : Nat) (before after : Slot) : (Ev.moveCount e z before after).s.path = e.s.path := by
  simp only [moveCount]; (repeat' split) <;> simp
@[simp] theorem bayChange_base (e : Ev) (b : Nat) (before : BayState) (beforeClass : BayClass) (after : BayState) (afterClass : BayClass) : (Ev.bayChange e b before beforeClass after afterClass).s.base = e.s.base := by
  simp only [bayChange]; (repeat' split) <;> simp [State.base_mk] <;> rfl
@[simp] theorem bayChange_bus (e : Ev) (b : Nat) (before : BayState) (beforeClass : BayClass) (after : BayState) (afterClass : BayClass) : (Ev.bayChange e b before beforeClass after afterClass).s.bus = e.s.bus := by
  simp only [bayChange]; (repeat' split) <;> simp [State.bus_mk] <;> rfl
@[simp] theorem bayChange_holds (e : Ev) (b : Nat) (before : BayState) (beforeClass : BayClass) (after : BayState) (afterClass : BayClass) : (Ev.bayChange e b before beforeClass after afterClass).s.holds = e.s.holds := by
  simp only [bayChange]; (repeat' split) <;> simp
@[simp] theorem bayChange_lines (e : Ev) (b : Nat) (before : BayState) (beforeClass : BayClass) (after : BayState) (afterClass : BayClass) : (Ev.bayChange e b before beforeClass after afterClass).s.lines = e.s.lines := by
  simp only [bayChange]; (repeat' split) <;> simp
@[simp] theorem bayChange_budget (e : Ev) (b : Nat) (before : BayState) (beforeClass : BayClass) (after : BayState) (afterClass : BayClass) : (Ev.bayChange e b before beforeClass after afterClass).s.budget = e.s.budget := by
  simp only [bayChange]; (repeat' split) <;> simp
@[simp] theorem bayChange_path (e : Ev) (b : Nat) (before : BayState) (beforeClass : BayClass) (after : BayState) (afterClass : BayClass) : (Ev.bayChange e b before beforeClass after afterClass).s.path = e.s.path := by
  simp only [bayChange]; (repeat' split) <;> simp
@[simp] theorem removeHold_base (e : Ev) (b : Nat) : (Ev.removeHold e b).s.base = e.s.base := by
  simp only [removeHold]; (repeat' split) <;> simp [State.base_mk] <;> rfl
@[simp] theorem removeHold_bus (e : Ev) (b : Nat) : (Ev.removeHold e b).s.bus = e.s.bus := by
  simp only [removeHold]; (repeat' split) <;> simp [State.bus_mk] <;> rfl
@[simp] theorem removeHold_zones (e : Ev) (b : Nat) : (Ev.removeHold e b).s.zones = e.s.zones := by
  simp only [removeHold]; (repeat' split) <;> simp
@[simp] theorem removeHold_bays (e : Ev) (b : Nat) : (Ev.removeHold e b).s.bays = e.s.bays := by
  simp only [removeHold]; (repeat' split) <;> simp
@[simp] theorem removeHold_bayLink (e : Ev) (b : Nat) : (Ev.removeHold e b).s.bayLink = e.s.bayLink := by
  simp only [removeHold]; (repeat' split) <;> simp
@[simp] theorem removeHold_points (e : Ev) (b : Nat) : (Ev.removeHold e b).s.points = e.s.points := by
  simp only [removeHold]; (repeat' split) <;> simp
@[simp] theorem removeHold_pool (e : Ev) (b : Nat) : (Ev.removeHold e b).s.pool = e.s.pool := by
  simp only [removeHold]; (repeat' split) <;> simp
@[simp] theorem removeHold_groups (e : Ev) (b : Nat) : (Ev.removeHold e b).s.groups = e.s.groups := by
  simp only [removeHold]; (repeat' split) <;> simp
@[simp] theorem removeHold_lines (e : Ev) (b : Nat) : (Ev.removeHold e b).s.lines = e.s.lines := by
  simp only [removeHold]; (repeat' split) <;> simp
@[simp] theorem removeHold_strings (e : Ev) (b : Nat) : (Ev.removeHold e b).s.strings = e.s.strings := by
  simp only [removeHold]; (repeat' split) <;> simp
@[simp] theorem removeHold_lampLink (e : Ev) (b : Nat) : (Ev.removeHold e b).s.lampLink = e.s.lampLink := by
  simp only [removeHold]; (repeat' split) <;> simp
@[simp] theorem removeHold_budget (e : Ev) (b : Nat) : (Ev.removeHold e b).s.budget = e.s.budget := by
  simp only [removeHold]; (repeat' split) <;> simp
@[simp] theorem removeHold_notices (e : Ev) (b : Nat) : (Ev.removeHold e b).s.notices = e.s.notices := by
  simp only [removeHold]; (repeat' split) <;> simp
@[simp] theorem removeHold_path (e : Ev) (b : Nat) : (Ev.removeHold e b).s.path = e.s.path := by
  simp only [removeHold]; (repeat' split) <;> simp
@[simp] theorem takeHold_base (e : Ev) (b : Nat) : (Ev.takeHold e b).s.base = e.s.base := by
  simp only [takeHold]; (repeat' split) <;> simp [State.base_mk] <;> rfl
@[simp] theorem takeHold_bus (e : Ev) (b : Nat) : (Ev.takeHold e b).s.bus = e.s.bus := by
  simp only [takeHold]; (repeat' split) <;> simp [State.bus_mk] <;> rfl
@[simp] theorem takeHold_zones (e : Ev) (b : Nat) : (Ev.takeHold e b).s.zones = e.s.zones := by
  simp only [takeHold]; (repeat' split) <;> simp
@[simp] theorem takeHold_bays (e : Ev) (b : Nat) : (Ev.takeHold e b).s.bays = e.s.bays := by
  simp only [takeHold]; (repeat' split) <;> simp
@[simp] theorem takeHold_bayLink (e : Ev) (b : Nat) : (Ev.takeHold e b).s.bayLink = e.s.bayLink := by
  simp only [takeHold]; (repeat' split) <;> simp
@[simp] theorem takeHold_points (e : Ev) (b : Nat) : (Ev.takeHold e b).s.points = e.s.points := by
  simp only [takeHold]; (repeat' split) <;> simp
@[simp] theorem takeHold_pool (e : Ev) (b : Nat) : (Ev.takeHold e b).s.pool = e.s.pool := by
  simp only [takeHold]; (repeat' split) <;> simp
@[simp] theorem takeHold_groups (e : Ev) (b : Nat) : (Ev.takeHold e b).s.groups = e.s.groups := by
  simp only [takeHold]; (repeat' split) <;> simp
@[simp] theorem takeHold_lines (e : Ev) (b : Nat) : (Ev.takeHold e b).s.lines = e.s.lines := by
  simp only [takeHold]; (repeat' split) <;> simp
@[simp] theorem takeHold_strings (e : Ev) (b : Nat) : (Ev.takeHold e b).s.strings = e.s.strings := by
  simp only [takeHold]; (repeat' split) <;> simp
@[simp] theorem takeHold_lampLink (e : Ev) (b : Nat) : (Ev.takeHold e b).s.lampLink = e.s.lampLink := by
  simp only [takeHold]; (repeat' split) <;> simp
@[simp] theorem takeHold_budget (e : Ev) (b : Nat) : (Ev.takeHold e b).s.budget = e.s.budget := by
  simp only [takeHold]; (repeat' split) <;> simp
@[simp] theorem takeHold_path (e : Ev) (b : Nat) : (Ev.takeHold e b).s.path = e.s.path := by
  simp only [takeHold]; (repeat' split) <;> simp
@[simp] theorem handBayState_base (e : Ev) (b : Nat) (before after : BayState) : (Ev.handBayState e b before after).s.base = e.s.base := by
  simp only [handBayState]; (repeat' split) <;> simp [State.base_mk] <;> rfl
@[simp] theorem handBayState_bus (e : Ev) (b : Nat) (before after : BayState) : (Ev.handBayState e b before after).s.bus = e.s.bus := by
  simp only [handBayState]; (repeat' split) <;> simp [State.bus_mk] <;> rfl
@[simp] theorem handBayState_holds (e : Ev) (b : Nat) (before after : BayState) : (Ev.handBayState e b before after).s.holds = e.s.holds := by
  simp only [handBayState]; (repeat' split) <;> simp
@[simp] theorem handBayState_lines (e : Ev) (b : Nat) (before after : BayState) : (Ev.handBayState e b before after).s.lines = e.s.lines := by
  simp only [handBayState]; (repeat' split) <;> simp
@[simp] theorem handBayState_budget (e : Ev) (b : Nat) (before after : BayState) : (Ev.handBayState e b before after).s.budget = e.s.budget := by
  simp only [handBayState]; (repeat' split) <;> simp
@[simp] theorem handBayState_path (e : Ev) (b : Nat) (before after : BayState) : (Ev.handBayState e b before after).s.path = e.s.path := by
  simp only [handBayState]; (repeat' split) <;> simp
@[simp] theorem rederiveBay_base (e : Ev) (b : Nat) : (Ev.rederiveBay e b).s.base = e.s.base := by
  simp only [rederiveBay]; (repeat' split) <;> simp [State.base_mk] <;> rfl
@[simp] theorem rederiveBay_bus (e : Ev) (b : Nat) : (Ev.rederiveBay e b).s.bus = e.s.bus := by
  simp only [rederiveBay]; (repeat' split) <;> simp [State.bus_mk] <;> rfl
@[simp] theorem rederiveBay_lines (e : Ev) (b : Nat) : (Ev.rederiveBay e b).s.lines = e.s.lines := by
  simp only [rederiveBay]; (repeat' split) <;> simp
@[simp] theorem rederiveBay_budget (e : Ev) (b : Nat) : (Ev.rederiveBay e b).s.budget = e.s.budget := by
  simp only [rederiveBay]; (repeat' split) <;> simp
@[simp] theorem rederiveBay_path (e : Ev) (b : Nat) : (Ev.rederiveBay e b).s.path = e.s.path := by
  simp only [rederiveBay]; (repeat' split) <;> simp
@[simp] theorem handFume_base (e : Ev) (z : Nat) : (Ev.handFume e z).s.base = e.s.base := by
  simp only [handFume]; (repeat' split) <;> simp [State.base_mk] <;> rfl
@[simp] theorem handFume_bus (e : Ev) (z : Nat) : (Ev.handFume e z).s.bus = e.s.bus := by
  simp only [handFume]; (repeat' split) <;> simp [State.bus_mk] <;> rfl
@[simp] theorem handFume_zones (e : Ev) (z : Nat) : (Ev.handFume e z).s.zones = e.s.zones := by
  simp only [handFume]; (repeat' split) <;> simp
@[simp] theorem handFume_bays (e : Ev) (z : Nat) : (Ev.handFume e z).s.bays = e.s.bays := by
  simp only [handFume]; (repeat' split) <;> simp
@[simp] theorem handFume_holds (e : Ev) (z : Nat) : (Ev.handFume e z).s.holds = e.s.holds := by
  simp only [handFume]; (repeat' split) <;> simp
@[simp] theorem handFume_bayLink (e : Ev) (z : Nat) : (Ev.handFume e z).s.bayLink = e.s.bayLink := by
  simp only [handFume]; (repeat' split) <;> simp
@[simp] theorem handFume_points (e : Ev) (z : Nat) : (Ev.handFume e z).s.points = e.s.points := by
  simp only [handFume]; (repeat' split) <;> simp
@[simp] theorem handFume_pool (e : Ev) (z : Nat) : (Ev.handFume e z).s.pool = e.s.pool := by
  simp only [handFume]; (repeat' split) <;> simp
@[simp] theorem handFume_lines (e : Ev) (z : Nat) : (Ev.handFume e z).s.lines = e.s.lines := by
  simp only [handFume]; (repeat' split) <;> simp
@[simp] theorem handFume_budget (e : Ev) (z : Nat) : (Ev.handFume e z).s.budget = e.s.budget := by
  simp only [handFume]; (repeat' split) <;> simp
@[simp] theorem handFume_notices (e : Ev) (z : Nat) : (Ev.handFume e z).s.notices = e.s.notices := by
  simp only [handFume]; (repeat' split) <;> simp
@[simp] theorem handFume_path (e : Ev) (z : Nat) : (Ev.handFume e z).s.path = e.s.path := by
  simp only [handFume]; (repeat' split) <;> simp
@[simp] theorem restOnFume_base (e : Ev) (z old : Nat) : (Ev.restOnFume e z old).s.base = e.s.base := by
  simp only [restOnFume]; (repeat' split) <;> simp [State.base_mk] <;> rfl
@[simp] theorem restOnFume_bus (e : Ev) (z old : Nat) : (Ev.restOnFume e z old).s.bus = e.s.bus := by
  simp only [restOnFume]; (repeat' split) <;> simp [State.bus_mk] <;> rfl
@[simp] theorem restOnFume_bays (e : Ev) (z old : Nat) : (Ev.restOnFume e z old).s.bays = e.s.bays := by
  simp only [restOnFume]; (repeat' split) <;> simp
@[simp] theorem restOnFume_holds (e : Ev) (z old : Nat) : (Ev.restOnFume e z old).s.holds = e.s.holds := by
  simp only [restOnFume]; (repeat' split) <;> simp
@[simp] theorem restOnFume_bayLink (e : Ev) (z old : Nat) : (Ev.restOnFume e z old).s.bayLink = e.s.bayLink := by
  simp only [restOnFume]; (repeat' split) <;> simp
@[simp] theorem restOnFume_points (e : Ev) (z old : Nat) : (Ev.restOnFume e z old).s.points = e.s.points := by
  simp only [restOnFume]; (repeat' split) <;> simp
@[simp] theorem restOnFume_pool (e : Ev) (z old : Nat) : (Ev.restOnFume e z old).s.pool = e.s.pool := by
  simp only [restOnFume]; (repeat' split) <;> simp
@[simp] theorem restOnFume_lines (e : Ev) (z old : Nat) : (Ev.restOnFume e z old).s.lines = e.s.lines := by
  simp only [restOnFume]; (repeat' split) <;> simp
@[simp] theorem restOnFume_lampLink (e : Ev) (z old : Nat) : (Ev.restOnFume e z old).s.lampLink = e.s.lampLink := by
  simp only [restOnFume]; (repeat' split) <;> simp
@[simp] theorem restOnFume_budget (e : Ev) (z old : Nat) : (Ev.restOnFume e z old).s.budget = e.s.budget := by
  simp only [restOnFume]; (repeat' split) <;> simp
@[simp] theorem restOnFume_notices (e : Ev) (z old : Nat) : (Ev.restOnFume e z old).s.notices = e.s.notices := by
  simp only [restOnFume]; (repeat' split) <;> simp
@[simp] theorem restOnFume_path (e : Ev) (z old : Nat) : (Ev.restOnFume e z old).s.path = e.s.path := by
  simp only [restOnFume]; (repeat' split) <;> simp
@[simp] theorem setFume_base (e : Ev) (z stage : Nat) : (Ev.setFume e z stage).s.base = e.s.base := by
  simp only [setFume]; (repeat' split) <;> simp [State.base_mk] <;> rfl
@[simp] theorem setFume_bus (e : Ev) (z stage : Nat) : (Ev.setFume e z stage).s.bus = e.s.bus := by
  simp only [setFume]; (repeat' split) <;> simp [State.bus_mk] <;> rfl
@[simp] theorem setFume_holds (e : Ev) (z stage : Nat) : (Ev.setFume e z stage).s.holds = e.s.holds := by
  simp only [setFume]; (repeat' split) <;> simp
@[simp] theorem setFume_lines (e : Ev) (z stage : Nat) : (Ev.setFume e z stage).s.lines = e.s.lines := by
  simp only [setFume]; (repeat' split) <;> simp
@[simp] theorem setFume_budget (e : Ev) (z stage : Nat) : (Ev.setFume e z stage).s.budget = e.s.budget := by
  simp only [setFume]; (repeat' split) <;> simp
@[simp] theorem setFume_path (e : Ev) (z stage : Nat) : (Ev.setFume e z stage).s.path = e.s.path := by
  simp only [setFume]; (repeat' split) <;> simp
@[simp] theorem deriveFume_base (e : Ev) (z : Nat) : (Ev.deriveFume e z).s.base = e.s.base := by
  simp only [deriveFume]; (repeat' split) <;> simp [State.base_mk] <;> rfl
@[simp] theorem deriveFume_bus (e : Ev) (z : Nat) : (Ev.deriveFume e z).s.bus = e.s.bus := by
  simp only [deriveFume]; (repeat' split) <;> simp [State.bus_mk] <;> rfl
@[simp] theorem deriveFume_holds (e : Ev) (z : Nat) : (Ev.deriveFume e z).s.holds = e.s.holds := by
  simp only [deriveFume]; (repeat' split) <;> simp
@[simp] theorem deriveFume_lines (e : Ev) (z : Nat) : (Ev.deriveFume e z).s.lines = e.s.lines := by
  simp only [deriveFume]; (repeat' split) <;> simp
@[simp] theorem deriveFume_budget (e : Ev) (z : Nat) : (Ev.deriveFume e z).s.budget = e.s.budget := by
  simp only [deriveFume]; (repeat' split) <;> simp
@[simp] theorem deriveFume_path (e : Ev) (z : Nat) : (Ev.deriveFume e z).s.path = e.s.path := by
  simp only [deriveFume]; (repeat' split) <;> simp
@[simp] theorem grantPass_base (e : Ev) : (Ev.grantPass e).s.base = e.s.base := by
  simp only [grantPass]; (repeat' split) <;> simp [State.base_mk] <;> rfl
@[simp] theorem grantPass_bus (e : Ev) : (Ev.grantPass e).s.bus = e.s.bus := by
  simp only [grantPass]; (repeat' split) <;> simp [State.bus_mk] <;> rfl
@[simp] theorem grantPass_zones (e : Ev) : (Ev.grantPass e).s.zones = e.s.zones := by
  simp only [grantPass]; (repeat' split) <;> simp
@[simp] theorem grantPass_bays (e : Ev) : (Ev.grantPass e).s.bays = e.s.bays := by
  simp only [grantPass]; (repeat' split) <;> simp
@[simp] theorem grantPass_holds (e : Ev) : (Ev.grantPass e).s.holds = e.s.holds := by
  simp only [grantPass]; (repeat' split) <;> simp
@[simp] theorem grantPass_bayLink (e : Ev) : (Ev.grantPass e).s.bayLink = e.s.bayLink := by
  simp only [grantPass]; (repeat' split) <;> simp
@[simp] theorem grantPass_points (e : Ev) : (Ev.grantPass e).s.points = e.s.points := by
  simp only [grantPass]; (repeat' split) <;> simp
@[simp] theorem grantPass_pool (e : Ev) : (Ev.grantPass e).s.pool = e.s.pool := by
  simp only [grantPass]; (repeat' split) <;> simp
@[simp] theorem grantPass_groups (e : Ev) : (Ev.grantPass e).s.groups = e.s.groups := by
  simp only [grantPass]; (repeat' split) <;> simp
@[simp] theorem grantPass_lines (e : Ev) : (Ev.grantPass e).s.lines = e.s.lines := by
  simp only [grantPass]; (repeat' split) <;> simp
@[simp] theorem grantPass_strings (e : Ev) : (Ev.grantPass e).s.strings = e.s.strings := by
  simp only [grantPass]; (repeat' split) <;> simp
@[simp] theorem grantPass_lampLink (e : Ev) : (Ev.grantPass e).s.lampLink = e.s.lampLink := by
  simp only [grantPass]; (repeat' split) <;> simp
@[simp] theorem grantPass_path (e : Ev) : (Ev.grantPass e).s.path = e.s.path := by
  simp only [grantPass]; (repeat' split) <;> simp
@[simp] theorem recordGroup_base (e : Ev) (g : Nat) : (Ev.recordGroup e g).s.base = e.s.base := by
  simp only [recordGroup]; (repeat' split) <;> simp [State.base_mk] <;> rfl
@[simp] theorem recordGroup_bus (e : Ev) (g : Nat) : (Ev.recordGroup e g).s.bus = e.s.bus := by
  simp only [recordGroup]; (repeat' split) <;> simp [State.bus_mk] <;> rfl
@[simp] theorem recordGroup_zones (e : Ev) (g : Nat) : (Ev.recordGroup e g).s.zones = e.s.zones := by
  simp only [recordGroup]; (repeat' split) <;> simp
@[simp] theorem recordGroup_bays (e : Ev) (g : Nat) : (Ev.recordGroup e g).s.bays = e.s.bays := by
  simp only [recordGroup]; (repeat' split) <;> simp
@[simp] theorem recordGroup_holds (e : Ev) (g : Nat) : (Ev.recordGroup e g).s.holds = e.s.holds := by
  simp only [recordGroup]; (repeat' split) <;> simp
@[simp] theorem recordGroup_bayLink (e : Ev) (g : Nat) : (Ev.recordGroup e g).s.bayLink = e.s.bayLink := by
  simp only [recordGroup]; (repeat' split) <;> simp
@[simp] theorem recordGroup_points (e : Ev) (g : Nat) : (Ev.recordGroup e g).s.points = e.s.points := by
  simp only [recordGroup]; (repeat' split) <;> simp
@[simp] theorem recordGroup_pool (e : Ev) (g : Nat) : (Ev.recordGroup e g).s.pool = e.s.pool := by
  simp only [recordGroup]; (repeat' split) <;> simp
@[simp] theorem recordGroup_groups (e : Ev) (g : Nat) : (Ev.recordGroup e g).s.groups = e.s.groups := by
  simp only [recordGroup]; (repeat' split) <;> simp
@[simp] theorem recordGroup_lines (e : Ev) (g : Nat) : (Ev.recordGroup e g).s.lines = e.s.lines := by
  simp only [recordGroup]; (repeat' split) <;> simp
@[simp] theorem recordGroup_strings (e : Ev) (g : Nat) : (Ev.recordGroup e g).s.strings = e.s.strings := by
  simp only [recordGroup]; (repeat' split) <;> simp
@[simp] theorem recordGroup_lampLink (e : Ev) (g : Nat) : (Ev.recordGroup e g).s.lampLink = e.s.lampLink := by
  simp only [recordGroup]; (repeat' split) <;> simp
@[simp] theorem recordGroup_notices (e : Ev) (g : Nat) : (Ev.recordGroup e g).s.notices = e.s.notices := by
  simp only [recordGroup]; (repeat' split) <;> simp
@[simp] theorem recordGroup_path (e : Ev) (g : Nat) : (Ev.recordGroup e g).s.path = e.s.path := by
  simp only [recordGroup]; (repeat' split) <;> simp
@[simp] theorem composeUnbudgeted_base (e : Ev) (k : Nat) : (Ev.composeUnbudgeted e k).s.base = e.s.base := by
  simp only [composeUnbudgeted]; (repeat' split) <;> simp [State.base_mk] <;> rfl
@[simp] theorem composeUnbudgeted_bus (e : Ev) (k : Nat) : (Ev.composeUnbudgeted e k).s.bus = e.s.bus := by
  simp only [composeUnbudgeted]; (repeat' split) <;> simp [State.bus_mk] <;> rfl
@[simp] theorem composeUnbudgeted_zones (e : Ev) (k : Nat) : (Ev.composeUnbudgeted e k).s.zones = e.s.zones := by
  simp only [composeUnbudgeted]; (repeat' split) <;> simp
@[simp] theorem composeUnbudgeted_bays (e : Ev) (k : Nat) : (Ev.composeUnbudgeted e k).s.bays = e.s.bays := by
  simp only [composeUnbudgeted]; (repeat' split) <;> simp
@[simp] theorem composeUnbudgeted_holds (e : Ev) (k : Nat) : (Ev.composeUnbudgeted e k).s.holds = e.s.holds := by
  simp only [composeUnbudgeted]; (repeat' split) <;> simp
@[simp] theorem composeUnbudgeted_bayLink (e : Ev) (k : Nat) : (Ev.composeUnbudgeted e k).s.bayLink = e.s.bayLink := by
  simp only [composeUnbudgeted]; (repeat' split) <;> simp
@[simp] theorem composeUnbudgeted_points (e : Ev) (k : Nat) : (Ev.composeUnbudgeted e k).s.points = e.s.points := by
  simp only [composeUnbudgeted]; (repeat' split) <;> simp
@[simp] theorem composeUnbudgeted_pool (e : Ev) (k : Nat) : (Ev.composeUnbudgeted e k).s.pool = e.s.pool := by
  simp only [composeUnbudgeted]; (repeat' split) <;> simp
@[simp] theorem composeUnbudgeted_groups (e : Ev) (k : Nat) : (Ev.composeUnbudgeted e k).s.groups = e.s.groups := by
  simp only [composeUnbudgeted]; (repeat' split) <;> simp
@[simp] theorem composeUnbudgeted_lines (e : Ev) (k : Nat) : (Ev.composeUnbudgeted e k).s.lines = e.s.lines := by
  simp only [composeUnbudgeted]; (repeat' split) <;> simp
@[simp] theorem composeUnbudgeted_lampLink (e : Ev) (k : Nat) : (Ev.composeUnbudgeted e k).s.lampLink = e.s.lampLink := by
  simp only [composeUnbudgeted]; (repeat' split) <;> simp
@[simp] theorem composeUnbudgeted_budget (e : Ev) (k : Nat) : (Ev.composeUnbudgeted e k).s.budget = e.s.budget := by
  simp only [composeUnbudgeted]; (repeat' split) <;> simp
@[simp] theorem composeUnbudgeted_notices (e : Ev) (k : Nat) : (Ev.composeUnbudgeted e k).s.notices = e.s.notices := by
  simp only [composeUnbudgeted]; (repeat' split) <;> simp
@[simp] theorem composeUnbudgeted_path (e : Ev) (k : Nat) : (Ev.composeUnbudgeted e k).s.path = e.s.path := by
  simp only [composeUnbudgeted]; (repeat' split) <;> simp
@[simp] theorem recordString_base (e : Ev) (k : Nat) : (Ev.recordString e k).s.base = e.s.base := by
  simp only [recordString]; (repeat' split) <;> simp [State.base_mk] <;> rfl
@[simp] theorem recordString_bus (e : Ev) (k : Nat) : (Ev.recordString e k).s.bus = e.s.bus := by
  simp only [recordString]; (repeat' split) <;> simp [State.bus_mk] <;> rfl
@[simp] theorem recordString_zones (e : Ev) (k : Nat) : (Ev.recordString e k).s.zones = e.s.zones := by
  simp only [recordString]; (repeat' split) <;> simp
@[simp] theorem recordString_bays (e : Ev) (k : Nat) : (Ev.recordString e k).s.bays = e.s.bays := by
  simp only [recordString]; (repeat' split) <;> simp
@[simp] theorem recordString_holds (e : Ev) (k : Nat) : (Ev.recordString e k).s.holds = e.s.holds := by
  simp only [recordString]; (repeat' split) <;> simp
@[simp] theorem recordString_bayLink (e : Ev) (k : Nat) : (Ev.recordString e k).s.bayLink = e.s.bayLink := by
  simp only [recordString]; (repeat' split) <;> simp
@[simp] theorem recordString_points (e : Ev) (k : Nat) : (Ev.recordString e k).s.points = e.s.points := by
  simp only [recordString]; (repeat' split) <;> simp
@[simp] theorem recordString_pool (e : Ev) (k : Nat) : (Ev.recordString e k).s.pool = e.s.pool := by
  simp only [recordString]; (repeat' split) <;> simp
@[simp] theorem recordString_groups (e : Ev) (k : Nat) : (Ev.recordString e k).s.groups = e.s.groups := by
  simp only [recordString]; (repeat' split) <;> simp
@[simp] theorem recordString_lines (e : Ev) (k : Nat) : (Ev.recordString e k).s.lines = e.s.lines := by
  simp only [recordString]; (repeat' split) <;> simp
@[simp] theorem recordString_strings (e : Ev) (k : Nat) : (Ev.recordString e k).s.strings = e.s.strings := by
  simp only [recordString]; (repeat' split) <;> simp
@[simp] theorem recordString_lampLink (e : Ev) (k : Nat) : (Ev.recordString e k).s.lampLink = e.s.lampLink := by
  simp only [recordString]; (repeat' split) <;> simp
@[simp] theorem recordString_notices (e : Ev) (k : Nat) : (Ev.recordString e k).s.notices = e.s.notices := by
  simp only [recordString]; (repeat' split) <;> simp
@[simp] theorem recordString_path (e : Ev) (k : Nat) : (Ev.recordString e k).s.path = e.s.path := by
  simp only [recordString]; (repeat' split) <;> simp
@[simp] theorem takeFlag_base (e : Ev) (k : Nat) : (Ev.takeFlag e k).s.base = e.s.base := by
  simp only [takeFlag]; (repeat' split) <;> simp [State.base_mk] <;> rfl
@[simp] theorem takeFlag_bus (e : Ev) (k : Nat) : (Ev.takeFlag e k).s.bus = e.s.bus := by
  simp only [takeFlag]; (repeat' split) <;> simp [State.bus_mk] <;> rfl
@[simp] theorem takeFlag_zones (e : Ev) (k : Nat) : (Ev.takeFlag e k).s.zones = e.s.zones := by
  simp only [takeFlag]; (repeat' split) <;> simp
@[simp] theorem takeFlag_bays (e : Ev) (k : Nat) : (Ev.takeFlag e k).s.bays = e.s.bays := by
  simp only [takeFlag]; (repeat' split) <;> simp
@[simp] theorem takeFlag_holds (e : Ev) (k : Nat) : (Ev.takeFlag e k).s.holds = e.s.holds := by
  simp only [takeFlag]; (repeat' split) <;> simp
@[simp] theorem takeFlag_bayLink (e : Ev) (k : Nat) : (Ev.takeFlag e k).s.bayLink = e.s.bayLink := by
  simp only [takeFlag]; (repeat' split) <;> simp
@[simp] theorem takeFlag_points (e : Ev) (k : Nat) : (Ev.takeFlag e k).s.points = e.s.points := by
  simp only [takeFlag]; (repeat' split) <;> simp
@[simp] theorem takeFlag_pool (e : Ev) (k : Nat) : (Ev.takeFlag e k).s.pool = e.s.pool := by
  simp only [takeFlag]; (repeat' split) <;> simp
@[simp] theorem takeFlag_groups (e : Ev) (k : Nat) : (Ev.takeFlag e k).s.groups = e.s.groups := by
  simp only [takeFlag]; (repeat' split) <;> simp
@[simp] theorem takeFlag_lines (e : Ev) (k : Nat) : (Ev.takeFlag e k).s.lines = e.s.lines := by
  simp only [takeFlag]; (repeat' split) <;> simp
@[simp] theorem takeFlag_lampLink (e : Ev) (k : Nat) : (Ev.takeFlag e k).s.lampLink = e.s.lampLink := by
  simp only [takeFlag]; (repeat' split) <;> simp
@[simp] theorem takeFlag_budget (e : Ev) (k : Nat) : (Ev.takeFlag e k).s.budget = e.s.budget := by
  simp only [takeFlag]; (repeat' split) <;> simp
@[simp] theorem takeFlag_notices (e : Ev) (k : Nat) : (Ev.takeFlag e k).s.notices = e.s.notices := by
  simp only [takeFlag]; (repeat' split) <;> simp
@[simp] theorem takeFlag_path (e : Ev) (k : Nat) : (Ev.takeFlag e k).s.path = e.s.path := by
  simp only [takeFlag]; (repeat' split) <;> simp
@[simp] theorem startFade_base (e : Ev) (k : Nat) : (Ev.startFade e k).s.base = e.s.base := by
  simp only [startFade]; (repeat' split) <;> simp [State.base_mk] <;> rfl
@[simp] theorem startFade_bus (e : Ev) (k : Nat) : (Ev.startFade e k).s.bus = e.s.bus := by
  simp only [startFade]; (repeat' split) <;> simp [State.bus_mk] <;> rfl
@[simp] theorem startFade_zones (e : Ev) (k : Nat) : (Ev.startFade e k).s.zones = e.s.zones := by
  simp only [startFade]; (repeat' split) <;> simp
@[simp] theorem startFade_bays (e : Ev) (k : Nat) : (Ev.startFade e k).s.bays = e.s.bays := by
  simp only [startFade]; (repeat' split) <;> simp
@[simp] theorem startFade_holds (e : Ev) (k : Nat) : (Ev.startFade e k).s.holds = e.s.holds := by
  simp only [startFade]; (repeat' split) <;> simp
@[simp] theorem startFade_bayLink (e : Ev) (k : Nat) : (Ev.startFade e k).s.bayLink = e.s.bayLink := by
  simp only [startFade]; (repeat' split) <;> simp
@[simp] theorem startFade_points (e : Ev) (k : Nat) : (Ev.startFade e k).s.points = e.s.points := by
  simp only [startFade]; (repeat' split) <;> simp
@[simp] theorem startFade_pool (e : Ev) (k : Nat) : (Ev.startFade e k).s.pool = e.s.pool := by
  simp only [startFade]; (repeat' split) <;> simp
@[simp] theorem startFade_groups (e : Ev) (k : Nat) : (Ev.startFade e k).s.groups = e.s.groups := by
  simp only [startFade]; (repeat' split) <;> simp
@[simp] theorem startFade_lines (e : Ev) (k : Nat) : (Ev.startFade e k).s.lines = e.s.lines := by
  simp only [startFade]; (repeat' split) <;> simp
@[simp] theorem startFade_lampLink (e : Ev) (k : Nat) : (Ev.startFade e k).s.lampLink = e.s.lampLink := by
  simp only [startFade]; (repeat' split) <;> simp
@[simp] theorem startFade_budget (e : Ev) (k : Nat) : (Ev.startFade e k).s.budget = e.s.budget := by
  simp only [startFade]; (repeat' split) <;> simp
@[simp] theorem startFade_notices (e : Ev) (k : Nat) : (Ev.startFade e k).s.notices = e.s.notices := by
  simp only [startFade]; (repeat' split) <;> simp
@[simp] theorem startFade_path (e : Ev) (k : Nat) : (Ev.startFade e k).s.path = e.s.path := by
  simp only [startFade]; (repeat' split) <;> simp
@[simp] theorem composeTargets_base (e : Ev) (k : Nat) : (Ev.composeTargets e k).s.base = e.s.base := by
  simp only [composeTargets]; (repeat' split) <;> simp [State.base_mk] <;> rfl
@[simp] theorem composeTargets_bus (e : Ev) (k : Nat) : (Ev.composeTargets e k).s.bus = e.s.bus := by
  simp only [composeTargets]; (repeat' split) <;> simp [State.bus_mk] <;> rfl
@[simp] theorem composeTargets_zones (e : Ev) (k : Nat) : (Ev.composeTargets e k).s.zones = e.s.zones := by
  simp only [composeTargets]; (repeat' split) <;> simp
@[simp] theorem composeTargets_bays (e : Ev) (k : Nat) : (Ev.composeTargets e k).s.bays = e.s.bays := by
  simp only [composeTargets]; (repeat' split) <;> simp
@[simp] theorem composeTargets_holds (e : Ev) (k : Nat) : (Ev.composeTargets e k).s.holds = e.s.holds := by
  simp only [composeTargets]; (repeat' split) <;> simp
@[simp] theorem composeTargets_bayLink (e : Ev) (k : Nat) : (Ev.composeTargets e k).s.bayLink = e.s.bayLink := by
  simp only [composeTargets]; (repeat' split) <;> simp
@[simp] theorem composeTargets_points (e : Ev) (k : Nat) : (Ev.composeTargets e k).s.points = e.s.points := by
  simp only [composeTargets]; (repeat' split) <;> simp
@[simp] theorem composeTargets_pool (e : Ev) (k : Nat) : (Ev.composeTargets e k).s.pool = e.s.pool := by
  simp only [composeTargets]; (repeat' split) <;> simp
@[simp] theorem composeTargets_groups (e : Ev) (k : Nat) : (Ev.composeTargets e k).s.groups = e.s.groups := by
  simp only [composeTargets]; (repeat' split) <;> simp
@[simp] theorem composeTargets_lines (e : Ev) (k : Nat) : (Ev.composeTargets e k).s.lines = e.s.lines := by
  simp only [composeTargets]; (repeat' split) <;> simp
@[simp] theorem composeTargets_budget (e : Ev) (k : Nat) : (Ev.composeTargets e k).s.budget = e.s.budget := by
  simp only [composeTargets]; (repeat' split) <;> simp
@[simp] theorem composeTargets_notices (e : Ev) (k : Nat) : (Ev.composeTargets e k).s.notices = e.s.notices := by
  simp only [composeTargets]; (repeat' split) <;> simp
@[simp] theorem composeTargets_path (e : Ev) (k : Nat) : (Ev.composeTargets e k).s.path = e.s.path := by
  simp only [composeTargets]; (repeat' split) <;> simp
@[simp] theorem settle_base (e : Ev) : (Ev.settle e).s.base = e.s.base := by
  simp only [settle]; (repeat' split) <;> simp [State.base_mk] <;> rfl
@[simp] theorem settle_bus (e : Ev) : (Ev.settle e).s.bus = e.s.bus := by
  simp only [settle]; (repeat' split) <;> simp [State.bus_mk] <;> rfl
@[simp] theorem settle_zones (e : Ev) : (Ev.settle e).s.zones = e.s.zones := by
  simp only [settle]; (repeat' split) <;> simp
@[simp] theorem settle_bays (e : Ev) : (Ev.settle e).s.bays = e.s.bays := by
  simp only [settle]; (repeat' split) <;> simp
@[simp] theorem settle_holds (e : Ev) : (Ev.settle e).s.holds = e.s.holds := by
  simp only [settle]; (repeat' split) <;> simp
@[simp] theorem settle_bayLink (e : Ev) : (Ev.settle e).s.bayLink = e.s.bayLink := by
  simp only [settle]; (repeat' split) <;> simp
@[simp] theorem settle_points (e : Ev) : (Ev.settle e).s.points = e.s.points := by
  simp only [settle]; (repeat' split) <;> simp
@[simp] theorem settle_pool (e : Ev) : (Ev.settle e).s.pool = e.s.pool := by
  simp only [settle]; (repeat' split) <;> simp
@[simp] theorem settle_path (e : Ev) : (Ev.settle e).s.path = e.s.path := by
  simp only [settle]; (repeat' split) <;> simp
@[simp] theorem followSummary_base (e : Ev) (d : Nat) : (Ev.followSummary e d).s.base = e.s.base := by
  simp only [followSummary]; (repeat' split) <;> simp [State.base_mk] <;> rfl
@[simp] theorem followSummary_bus (e : Ev) (d : Nat) : (Ev.followSummary e d).s.bus = e.s.bus := by
  simp only [followSummary]; (repeat' split) <;> simp [State.bus_mk] <;> rfl
@[simp] theorem followSummary_zones (e : Ev) (d : Nat) : (Ev.followSummary e d).s.zones = e.s.zones := by
  simp only [followSummary]; (repeat' split) <;> simp
@[simp] theorem followSummary_bays (e : Ev) (d : Nat) : (Ev.followSummary e d).s.bays = e.s.bays := by
  simp only [followSummary]; (repeat' split) <;> simp
@[simp] theorem followSummary_holds (e : Ev) (d : Nat) : (Ev.followSummary e d).s.holds = e.s.holds := by
  simp only [followSummary]; (repeat' split) <;> simp
@[simp] theorem followSummary_bayLink (e : Ev) (d : Nat) : (Ev.followSummary e d).s.bayLink = e.s.bayLink := by
  simp only [followSummary]; (repeat' split) <;> simp
@[simp] theorem followSummary_pool (e : Ev) (d : Nat) : (Ev.followSummary e d).s.pool = e.s.pool := by
  simp only [followSummary]; (repeat' split) <;> simp
@[simp] theorem followSummary_groups (e : Ev) (d : Nat) : (Ev.followSummary e d).s.groups = e.s.groups := by
  simp only [followSummary]; (repeat' split) <;> simp
@[simp] theorem followSummary_lines (e : Ev) (d : Nat) : (Ev.followSummary e d).s.lines = e.s.lines := by
  simp only [followSummary]; (repeat' split) <;> simp
@[simp] theorem followSummary_strings (e : Ev) (d : Nat) : (Ev.followSummary e d).s.strings = e.s.strings := by
  simp only [followSummary]; (repeat' split) <;> simp
@[simp] theorem followSummary_budget (e : Ev) (d : Nat) : (Ev.followSummary e d).s.budget = e.s.budget := by
  simp only [followSummary]; (repeat' split) <;> simp
@[simp] theorem followSummary_notices (e : Ev) (d : Nat) : (Ev.followSummary e d).s.notices = e.s.notices := by
  simp only [followSummary]; (repeat' split) <;> simp
@[simp] theorem followSummary_path (e : Ev) (d : Nat) : (Ev.followSummary e d).s.path = e.s.path := by
  simp only [followSummary]; (repeat' split) <;> simp
@[simp] theorem followSummaries_base (e : Ev) : (Ev.followSummaries e).s.base = e.s.base := by
  simp only [followSummaries]; (repeat' split) <;> simp [State.base_mk] <;> rfl
@[simp] theorem followSummaries_bus (e : Ev) : (Ev.followSummaries e).s.bus = e.s.bus := by
  simp only [followSummaries]; (repeat' split) <;> simp [State.bus_mk] <;> rfl
@[simp] theorem followSummaries_zones (e : Ev) : (Ev.followSummaries e).s.zones = e.s.zones := by
  simp only [followSummaries]; (repeat' split) <;> simp
@[simp] theorem followSummaries_bays (e : Ev) : (Ev.followSummaries e).s.bays = e.s.bays := by
  simp only [followSummaries]; (repeat' split) <;> simp
@[simp] theorem followSummaries_holds (e : Ev) : (Ev.followSummaries e).s.holds = e.s.holds := by
  simp only [followSummaries]; (repeat' split) <;> simp
@[simp] theorem followSummaries_bayLink (e : Ev) : (Ev.followSummaries e).s.bayLink = e.s.bayLink := by
  simp only [followSummaries]; (repeat' split) <;> simp
@[simp] theorem followSummaries_pool (e : Ev) : (Ev.followSummaries e).s.pool = e.s.pool := by
  simp only [followSummaries]; (repeat' split) <;> simp
@[simp] theorem followSummaries_groups (e : Ev) : (Ev.followSummaries e).s.groups = e.s.groups := by
  simp only [followSummaries]; (repeat' split) <;> simp
@[simp] theorem followSummaries_lines (e : Ev) : (Ev.followSummaries e).s.lines = e.s.lines := by
  simp only [followSummaries]; (repeat' split) <;> simp
@[simp] theorem followSummaries_strings (e : Ev) : (Ev.followSummaries e).s.strings = e.s.strings := by
  simp only [followSummaries]; (repeat' split) <;> simp
@[simp] theorem followSummaries_budget (e : Ev) : (Ev.followSummaries e).s.budget = e.s.budget := by
  simp only [followSummaries]; (repeat' split) <;> simp
@[simp] theorem followSummaries_notices (e : Ev) : (Ev.followSummaries e).s.notices = e.s.notices := by
  simp only [followSummaries]; (repeat' split) <;> simp
@[simp] theorem followSummaries_path (e : Ev) : (Ev.followSummaries e).s.path = e.s.path := by
  simp only [followSummaries]; (repeat' split) <;> simp
@[simp] theorem startLine_base (e : Ev) (l : DriveLine) : (Ev.startLine e l).s.base = e.s.base := by
  simp only [startLine]; (repeat' split) <;> simp [State.base_mk] <;> rfl
@[simp] theorem startLine_bus (e : Ev) (l : DriveLine) : (Ev.startLine e l).s.bus = e.s.bus := by
  simp only [startLine]; (repeat' split) <;> simp [State.bus_mk] <;> rfl
@[simp] theorem startLine_zones (e : Ev) (l : DriveLine) : (Ev.startLine e l).s.zones = e.s.zones := by
  simp only [startLine]; (repeat' split) <;> simp
@[simp] theorem startLine_bays (e : Ev) (l : DriveLine) : (Ev.startLine e l).s.bays = e.s.bays := by
  simp only [startLine]; (repeat' split) <;> simp
@[simp] theorem startLine_holds (e : Ev) (l : DriveLine) : (Ev.startLine e l).s.holds = e.s.holds := by
  simp only [startLine]; (repeat' split) <;> simp
@[simp] theorem startLine_bayLink (e : Ev) (l : DriveLine) : (Ev.startLine e l).s.bayLink = e.s.bayLink := by
  simp only [startLine]; (repeat' split) <;> simp
@[simp] theorem startLine_points (e : Ev) (l : DriveLine) : (Ev.startLine e l).s.points = e.s.points := by
  simp only [startLine]; (repeat' split) <;> simp
@[simp] theorem startLine_pool (e : Ev) (l : DriveLine) : (Ev.startLine e l).s.pool = e.s.pool := by
  simp only [startLine]; (repeat' split) <;> simp
@[simp] theorem startLine_groups (e : Ev) (l : DriveLine) : (Ev.startLine e l).s.groups = e.s.groups := by
  simp only [startLine]; (repeat' split) <;> simp
@[simp] theorem startLine_strings (e : Ev) (l : DriveLine) : (Ev.startLine e l).s.strings = e.s.strings := by
  simp only [startLine]; (repeat' split) <;> simp
@[simp] theorem startLine_lampLink (e : Ev) (l : DriveLine) : (Ev.startLine e l).s.lampLink = e.s.lampLink := by
  simp only [startLine]; (repeat' split) <;> simp
@[simp] theorem startLine_budget (e : Ev) (l : DriveLine) : (Ev.startLine e l).s.budget = e.s.budget := by
  simp only [startLine]; (repeat' split) <;> simp
@[simp] theorem startLine_notices (e : Ev) (l : DriveLine) : (Ev.startLine e l).s.notices = e.s.notices := by
  simp only [startLine]; (repeat' split) <;> simp
@[simp] theorem startLine_path (e : Ev) (l : DriveLine) : (Ev.startLine e l).s.path = e.s.path := by
  simp only [startLine]; (repeat' split) <;> simp
@[simp] theorem sendString_base (e : Ev) (k : Nat) : (Ev.sendString e k).s.base = e.s.base := by
  simp only [sendString]; (repeat' split) <;> simp [State.base_mk] <;> rfl
@[simp] theorem sendString_bus (e : Ev) (k : Nat) : (Ev.sendString e k).s.bus = e.s.bus := by
  simp only [sendString]; (repeat' split) <;> simp [State.bus_mk] <;> rfl
@[simp] theorem sendString_zones (e : Ev) (k : Nat) : (Ev.sendString e k).s.zones = e.s.zones := by
  simp only [sendString]; (repeat' split) <;> simp
@[simp] theorem sendString_bays (e : Ev) (k : Nat) : (Ev.sendString e k).s.bays = e.s.bays := by
  simp only [sendString]; (repeat' split) <;> simp
@[simp] theorem sendString_holds (e : Ev) (k : Nat) : (Ev.sendString e k).s.holds = e.s.holds := by
  simp only [sendString]; (repeat' split) <;> simp
@[simp] theorem sendString_bayLink (e : Ev) (k : Nat) : (Ev.sendString e k).s.bayLink = e.s.bayLink := by
  simp only [sendString]; (repeat' split) <;> simp
@[simp] theorem sendString_points (e : Ev) (k : Nat) : (Ev.sendString e k).s.points = e.s.points := by
  simp only [sendString]; (repeat' split) <;> simp
@[simp] theorem sendString_pool (e : Ev) (k : Nat) : (Ev.sendString e k).s.pool = e.s.pool := by
  simp only [sendString]; (repeat' split) <;> simp
@[simp] theorem sendString_groups (e : Ev) (k : Nat) : (Ev.sendString e k).s.groups = e.s.groups := by
  simp only [sendString]; (repeat' split) <;> simp
@[simp] theorem sendString_lines (e : Ev) (k : Nat) : (Ev.sendString e k).s.lines = e.s.lines := by
  simp only [sendString]; (repeat' split) <;> simp
@[simp] theorem sendString_strings (e : Ev) (k : Nat) : (Ev.sendString e k).s.strings = e.s.strings := by
  simp only [sendString]; (repeat' split) <;> simp
@[simp] theorem sendString_budget (e : Ev) (k : Nat) : (Ev.sendString e k).s.budget = e.s.budget := by
  simp only [sendString]; (repeat' split) <;> simp
@[simp] theorem sendString_notices (e : Ev) (k : Nat) : (Ev.sendString e k).s.notices = e.s.notices := by
  simp only [sendString]; (repeat' split) <;> simp
@[simp] theorem sendString_path (e : Ev) (k : Nat) : (Ev.sendString e k).s.path = e.s.path := by
  simp only [sendString]; (repeat' split) <;> simp
@[simp] theorem sendSign_base (e : Ev) (d run : Nat) : (Ev.sendSign e d run).s.base = e.s.base := by
  simp only [sendSign]; (repeat' split) <;> simp [State.base_mk] <;> rfl
@[simp] theorem sendSign_bus (e : Ev) (d run : Nat) : (Ev.sendSign e d run).s.bus = e.s.bus := by
  simp only [sendSign]; (repeat' split) <;> simp [State.bus_mk] <;> rfl
@[simp] theorem sendSign_zones (e : Ev) (d run : Nat) : (Ev.sendSign e d run).s.zones = e.s.zones := by
  simp only [sendSign]; (repeat' split) <;> simp
@[simp] theorem sendSign_bays (e : Ev) (d run : Nat) : (Ev.sendSign e d run).s.bays = e.s.bays := by
  simp only [sendSign]; (repeat' split) <;> simp
@[simp] theorem sendSign_holds (e : Ev) (d run : Nat) : (Ev.sendSign e d run).s.holds = e.s.holds := by
  simp only [sendSign]; (repeat' split) <;> simp
@[simp] theorem sendSign_bayLink (e : Ev) (d run : Nat) : (Ev.sendSign e d run).s.bayLink = e.s.bayLink := by
  simp only [sendSign]; (repeat' split) <;> simp
@[simp] theorem sendSign_points (e : Ev) (d run : Nat) : (Ev.sendSign e d run).s.points = e.s.points := by
  simp only [sendSign]; (repeat' split) <;> simp
@[simp] theorem sendSign_pool (e : Ev) (d run : Nat) : (Ev.sendSign e d run).s.pool = e.s.pool := by
  simp only [sendSign]; (repeat' split) <;> simp
@[simp] theorem sendSign_groups (e : Ev) (d run : Nat) : (Ev.sendSign e d run).s.groups = e.s.groups := by
  simp only [sendSign]; (repeat' split) <;> simp
@[simp] theorem sendSign_lines (e : Ev) (d run : Nat) : (Ev.sendSign e d run).s.lines = e.s.lines := by
  simp only [sendSign]; (repeat' split) <;> simp
@[simp] theorem sendSign_strings (e : Ev) (d run : Nat) : (Ev.sendSign e d run).s.strings = e.s.strings := by
  simp only [sendSign]; (repeat' split) <;> simp
@[simp] theorem sendSign_budget (e : Ev) (d run : Nat) : (Ev.sendSign e d run).s.budget = e.s.budget := by
  simp only [sendSign]; (repeat' split) <;> simp
@[simp] theorem sendSign_notices (e : Ev) (d run : Nat) : (Ev.sendSign e d run).s.notices = e.s.notices := by
  simp only [sendSign]; (repeat' split) <;> simp
@[simp] theorem sendSign_path (e : Ev) (d run : Nat) : (Ev.sendSign e d run).s.path = e.s.path := by
  simp only [sendSign]; (repeat' split) <;> simp
@[simp] theorem startLamp_base (e : Ev) : (Ev.startLamp e).s.base = e.s.base := by
  simp only [startLamp]; (repeat' split) <;> simp [State.base_mk] <;> rfl
@[simp] theorem startLamp_bus (e : Ev) : (Ev.startLamp e).s.bus = e.s.bus := by
  simp only [startLamp]; (repeat' split) <;> simp [State.bus_mk] <;> rfl
@[simp] theorem startLamp_zones (e : Ev) : (Ev.startLamp e).s.zones = e.s.zones := by
  simp only [startLamp]; (repeat' split) <;> simp
@[simp] theorem startLamp_bays (e : Ev) : (Ev.startLamp e).s.bays = e.s.bays := by
  simp only [startLamp]; (repeat' split) <;> simp
@[simp] theorem startLamp_holds (e : Ev) : (Ev.startLamp e).s.holds = e.s.holds := by
  simp only [startLamp]; (repeat' split) <;> simp
@[simp] theorem startLamp_bayLink (e : Ev) : (Ev.startLamp e).s.bayLink = e.s.bayLink := by
  simp only [startLamp]; (repeat' split) <;> simp
@[simp] theorem startLamp_points (e : Ev) : (Ev.startLamp e).s.points = e.s.points := by
  simp only [startLamp]; (repeat' split) <;> simp
@[simp] theorem startLamp_pool (e : Ev) : (Ev.startLamp e).s.pool = e.s.pool := by
  simp only [startLamp]; (repeat' split) <;> simp
@[simp] theorem startLamp_groups (e : Ev) : (Ev.startLamp e).s.groups = e.s.groups := by
  simp only [startLamp]; (repeat' split) <;> simp
@[simp] theorem startLamp_lines (e : Ev) : (Ev.startLamp e).s.lines = e.s.lines := by
  simp only [startLamp]; (repeat' split) <;> simp
@[simp] theorem startLamp_strings (e : Ev) : (Ev.startLamp e).s.strings = e.s.strings := by
  simp only [startLamp]; (repeat' split) <;> simp
@[simp] theorem startLamp_budget (e : Ev) : (Ev.startLamp e).s.budget = e.s.budget := by
  simp only [startLamp]; (repeat' split) <;> simp
@[simp] theorem startLamp_notices (e : Ev) : (Ev.startLamp e).s.notices = e.s.notices := by
  simp only [startLamp]; (repeat' split) <;> simp
@[simp] theorem startLamp_path (e : Ev) : (Ev.startLamp e).s.path = e.s.path := by
  simp only [startLamp]; (repeat' split) <;> simp
@[simp] theorem startBayLink_base (e : Ev) : (Ev.startBayLink e).s.base = e.s.base := by
  simp only [startBayLink]; (repeat' split) <;> simp [State.base_mk] <;> rfl
@[simp] theorem startBayLink_bus (e : Ev) : (Ev.startBayLink e).s.bus = e.s.bus := by
  simp only [startBayLink]; (repeat' split) <;> simp [State.bus_mk] <;> rfl
@[simp] theorem startBayLink_zones (e : Ev) : (Ev.startBayLink e).s.zones = e.s.zones := by
  simp only [startBayLink]; (repeat' split) <;> simp
@[simp] theorem startBayLink_bays (e : Ev) : (Ev.startBayLink e).s.bays = e.s.bays := by
  simp only [startBayLink]; (repeat' split) <;> simp
@[simp] theorem startBayLink_holds (e : Ev) : (Ev.startBayLink e).s.holds = e.s.holds := by
  simp only [startBayLink]; (repeat' split) <;> simp
@[simp] theorem startBayLink_points (e : Ev) : (Ev.startBayLink e).s.points = e.s.points := by
  simp only [startBayLink]; (repeat' split) <;> simp
@[simp] theorem startBayLink_pool (e : Ev) : (Ev.startBayLink e).s.pool = e.s.pool := by
  simp only [startBayLink]; (repeat' split) <;> simp
@[simp] theorem startBayLink_groups (e : Ev) : (Ev.startBayLink e).s.groups = e.s.groups := by
  simp only [startBayLink]; (repeat' split) <;> simp
@[simp] theorem startBayLink_lines (e : Ev) : (Ev.startBayLink e).s.lines = e.s.lines := by
  simp only [startBayLink]; (repeat' split) <;> simp
@[simp] theorem startBayLink_strings (e : Ev) : (Ev.startBayLink e).s.strings = e.s.strings := by
  simp only [startBayLink]; (repeat' split) <;> simp
@[simp] theorem startBayLink_lampLink (e : Ev) : (Ev.startBayLink e).s.lampLink = e.s.lampLink := by
  simp only [startBayLink]; (repeat' split) <;> simp
@[simp] theorem startBayLink_budget (e : Ev) : (Ev.startBayLink e).s.budget = e.s.budget := by
  simp only [startBayLink]; (repeat' split) <;> simp
@[simp] theorem startBayLink_notices (e : Ev) : (Ev.startBayLink e).s.notices = e.s.notices := by
  simp only [startBayLink]; (repeat' split) <;> simp
@[simp] theorem startBayLink_path (e : Ev) : (Ev.startBayLink e).s.path = e.s.path := by
  simp only [startBayLink]; (repeat' split) <;> simp
@[simp] theorem startLinks_base (e : Ev) : (Ev.startLinks e).s.base = e.s.base := by
  simp only [startLinks]; (repeat' split) <;> simp [State.base_mk] <;> rfl
@[simp] theorem startLinks_bus (e : Ev) : (Ev.startLinks e).s.bus = e.s.bus := by
  simp only [startLinks]; (repeat' split) <;> simp [State.bus_mk] <;> rfl
@[simp] theorem startLinks_zones (e : Ev) : (Ev.startLinks e).s.zones = e.s.zones := by
  simp only [startLinks]; (repeat' split) <;> simp
@[simp] theorem startLinks_bays (e : Ev) : (Ev.startLinks e).s.bays = e.s.bays := by
  simp only [startLinks]; (repeat' split) <;> simp
@[simp] theorem startLinks_holds (e : Ev) : (Ev.startLinks e).s.holds = e.s.holds := by
  simp only [startLinks]; (repeat' split) <;> simp
@[simp] theorem startLinks_points (e : Ev) : (Ev.startLinks e).s.points = e.s.points := by
  simp only [startLinks]; (repeat' split) <;> simp
@[simp] theorem startLinks_pool (e : Ev) : (Ev.startLinks e).s.pool = e.s.pool := by
  simp only [startLinks]; (repeat' split) <;> simp
@[simp] theorem startLinks_groups (e : Ev) : (Ev.startLinks e).s.groups = e.s.groups := by
  simp only [startLinks]; (repeat' split) <;> simp
@[simp] theorem startLinks_strings (e : Ev) : (Ev.startLinks e).s.strings = e.s.strings := by
  simp only [startLinks]; (repeat' split) <;> simp
@[simp] theorem startLinks_budget (e : Ev) : (Ev.startLinks e).s.budget = e.s.budget := by
  simp only [startLinks]; (repeat' split) <;> simp
@[simp] theorem startLinks_notices (e : Ev) : (Ev.startLinks e).s.notices = e.s.notices := by
  simp only [startLinks]; (repeat' split) <;> simp
@[simp] theorem startLinks_path (e : Ev) : (Ev.startLinks e).s.path = e.s.path := by
  simp only [startLinks]; (repeat' split) <;> simp
@[simp] theorem dropNotices_base (e : Ev) : (Ev.dropNotices e).s.base = e.s.base := by
  simp only [dropNotices]; (repeat' split) <;> simp [State.base_mk] <;> rfl
@[simp] theorem dropNotices_bus (e : Ev) : (Ev.dropNotices e).s.bus = e.s.bus := by
  simp only [dropNotices]; (repeat' split) <;> simp [State.bus_mk] <;> rfl
@[simp] theorem dropNotices_zones (e : Ev) : (Ev.dropNotices e).s.zones = e.s.zones := by
  simp only [dropNotices]; (repeat' split) <;> simp
@[simp] theorem dropNotices_bays (e : Ev) : (Ev.dropNotices e).s.bays = e.s.bays := by
  simp only [dropNotices]; (repeat' split) <;> simp
@[simp] theorem dropNotices_holds (e : Ev) : (Ev.dropNotices e).s.holds = e.s.holds := by
  simp only [dropNotices]; (repeat' split) <;> simp
@[simp] theorem dropNotices_bayLink (e : Ev) : (Ev.dropNotices e).s.bayLink = e.s.bayLink := by
  simp only [dropNotices]; (repeat' split) <;> simp
@[simp] theorem dropNotices_points (e : Ev) : (Ev.dropNotices e).s.points = e.s.points := by
  simp only [dropNotices]; (repeat' split) <;> simp
@[simp] theorem dropNotices_pool (e : Ev) : (Ev.dropNotices e).s.pool = e.s.pool := by
  simp only [dropNotices]; (repeat' split) <;> simp
@[simp] theorem dropNotices_groups (e : Ev) : (Ev.dropNotices e).s.groups = e.s.groups := by
  simp only [dropNotices]; (repeat' split) <;> simp
@[simp] theorem dropNotices_lines (e : Ev) : (Ev.dropNotices e).s.lines = e.s.lines := by
  simp only [dropNotices]; (repeat' split) <;> simp
@[simp] theorem dropNotices_strings (e : Ev) : (Ev.dropNotices e).s.strings = e.s.strings := by
  simp only [dropNotices]; (repeat' split) <;> simp
@[simp] theorem dropNotices_lampLink (e : Ev) : (Ev.dropNotices e).s.lampLink = e.s.lampLink := by
  simp only [dropNotices]; (repeat' split) <;> simp
@[simp] theorem dropNotices_budget (e : Ev) : (Ev.dropNotices e).s.budget = e.s.budget := by
  simp only [dropNotices]; (repeat' split) <;> simp
@[simp] theorem dropNotices_path (e : Ev) : (Ev.dropNotices e).s.path = e.s.path := by
  simp only [dropNotices]; (repeat' split) <;> simp

end Ev

end Sys2Proof.Machine
end

