-- ==== Sys2Proof/Laws/Bus.lean ====
section
/-! SUPPORT. The operations of the blocks leave the queue of events, memory and the memory port as they are; only the
Memory Path's own operations touch them. -/

set_option linter.unusedSimpArgs false

namespace Sys2Proof.Machine.Ev

-- One proof text serves each family of lemmas below, so some of its parts do nothing for some of the lemmas.
set_option linter.unnecessarySeqFocus false
set_option linter.unreachableTactic false
set_option linter.unusedTactic false

@[simp] theorem markReports_bus (e : Ev) : (Ev.markReports e).s.bus = e.s.bus := by
  rfl
@[simp] theorem markImage_bus (e : Ev) : (Ev.markImage e).s.bus = e.s.bus := by
  rfl
@[simp] theorem captureMode_bus (e : Ev) (z : Nat) (mode : ZoneMode) : (Ev.captureMode e z mode).s.bus = e.s.bus := by
  simp only [captureMode]; (repeat' split) <;> simp [State.bus_mk] <;> rfl
@[simp] theorem captureExtraAir_bus (e : Ev) (z v : Nat) : (Ev.captureExtraAir e z v).s.bus = e.s.bus := by
  simp only [captureExtraAir]; (repeat' split) <;> simp [State.bus_mk] <;> rfl
@[simp] theorem captureFloor_bus (e : Ev) (g v : Nat) : (Ev.captureFloor e g v).s.bus = e.s.bus := by
  simp only [captureFloor]; (repeat' split) <;> simp [State.bus_mk] <;> rfl
@[simp] theorem copyLevel_bus (e : Ev) (rule : CopyRule) (i level : Nat) : (Ev.copyLevel e rule i level).s.bus = e.s.bus := by
  simp only [copyLevel]; (repeat' split) <;> simp [State.bus_mk] <;> rfl
@[simp] theorem captureLevels_bus (e : Ev) (k w : Nat) (word : Word) (enables : ByteEnables) : (Ev.captureLevels e k w word enables).s.bus = e.s.bus := by
  simp only [captureLevels]; (repeat' split) <;> simp [State.bus_mk] <;> rfl
@[simp] theorem captureAllFull_bus (e : Ev) (v : Nat) : (Ev.captureAllFull e v).s.bus = e.s.bus := by
  simp only [captureAllFull]; (repeat' split) <;> simp [State.bus_mk] <;> rfl
@[simp] theorem captureReadIndex_bus (e : Ev) (v : BitVec 16) : (Ev.captureReadIndex e v).s.bus = e.s.bus := by
  simp only [captureReadIndex]; (repeat' split) <;> simp [State.bus_mk] <;> rfl
@[simp] theorem captureThreshold_bus (e : Ev) (v : Nat) : (Ev.captureThreshold e v).s.bus = e.s.bus := by
  simp only [captureThreshold]; (repeat' split) <;> simp [State.bus_mk] <;> rfl
@[simp] theorem captureDemand_bus (e : Ev) (d : Demand) (c : CellRef) (w : Word) (enables : ByteEnables) : (Ev.captureDemand e d c w enables).s.bus = e.s.bus := by
  simp only [captureDemand]; (repeat' split) <;> simp [State.bus_mk] <;> rfl
@[simp] theorem triggerStart_bus (e : Ev) (w : Word) : (Ev.triggerStart e w).s.bus = e.s.bus := by
  simp only [triggerStart]; (repeat' split) <;> simp [State.bus_mk] <;> rfl
@[simp] theorem triggerAbort_bus (e : Ev) : (Ev.triggerAbort e).s.bus = e.s.bus := by
  simp only [triggerAbort]; (repeat' split) <;> simp [State.bus_mk] <;> rfl
@[simp] theorem guardWrite_bus (e : Ev) (a : Address) : (Ev.guardWrite e a).s.bus = e.s.bus := by
  simp only [guardWrite]; (repeat' split) <;> simp [State.bus_mk] <;> rfl
@[simp] theorem broadcastLine_bus (e : Ev) (l : DriveLine) : (Ev.broadcastLine e l).s.bus = e.s.bus := by
  simp only [broadcastLine]; (repeat' split) <;> simp [State.bus_mk] <;> rfl
@[simp] theorem broadcast_bus (e : Ev) : (Ev.broadcast e).s.bus = e.s.bus := by
  simp only [broadcast]; (repeat' split) <;> simp [State.bus_mk] <;> rfl
@[simp] theorem enterFallback_bus (e : Ev) : (Ev.enterFallback e).s.bus = e.s.bus := by
  simp only [enterFallback]; (repeat' split) <;> simp [State.bus_mk] <;> rfl
@[simp] theorem enterZones_bus (e : Ev) : (Ev.enterZones e).s.bus = e.s.bus := by
  simp only [enterZones]; (repeat' split) <;> simp [State.bus_mk] <;> rfl
@[simp] theorem enterBays_bus (e : Ev) : (Ev.enterBays e).s.bus = e.s.bus := by
  simp only [enterBays]; (repeat' split) <;> simp [State.bus_mk] <;> rfl
@[simp] theorem enterPoints_bus (e : Ev) : (Ev.enterPoints e).s.bus = e.s.bus := by
  simp only [enterPoints]; (repeat' split) <;> simp [State.bus_mk] <;> rfl
@[simp] theorem enterAir_bus (e : Ev) : (Ev.enterAir e).s.bus = e.s.bus := by
  simp only [enterAir]; (repeat' split) <;> simp [State.bus_mk] <;> rfl
@[simp] theorem enterGroups_bus (e : Ev) : (Ev.enterGroups e).s.bus = e.s.bus := by
  simp only [enterGroups]; (repeat' split) <;> simp [State.bus_mk] <;> rfl
@[simp] theorem enterStrings_bus (e : Ev) : (Ev.enterStrings e).s.bus = e.s.bus := by
  simp only [enterStrings]; (repeat' split) <;> simp [State.bus_mk] <;> rfl
@[simp] theorem firstGrants_bus (e : Ev) : (Ev.firstGrants e).s.bus = e.s.bus := by
  simp only [firstGrants]; (repeat' split) <;> simp [State.bus_mk] <;> rfl
@[simp] theorem firstCommand_bus (e : Ev) (g : Nat) : (Ev.firstCommand e g).s.bus = e.s.bus := by
  simp only [firstCommand]; (repeat' split) <;> simp [State.bus_mk] <;> rfl
@[simp] theorem takeStoreData_bus (e : Ev) (data : List Byte) : (Ev.takeStoreData e data).s.bus = e.s.bus := by
  simp only [takeStoreData]; (repeat' split) <;> simp [State.bus_mk] <;> rfl
@[simp] theorem testNearing_bus (e : Ev) (h : Hold) : (Ev.testNearing e h).s.bus = e.s.bus := by
  simp only [testNearing]; (repeat' split) <;> simp [State.bus_mk] <;> rfl
@[simp] theorem markAge_bus (before : State) (e : Ev) (n : Nat) : (Ev.markAge before e n).s.bus = e.s.bus := by
  simp only [markAge]; (repeat' split) <;> simp [State.bus_mk] <;> rfl
@[simp] theorem hear_bus (e : Ev) (b : Nat) : (Ev.hear e b).s.bus = e.s.bus := by
  simp only [hear]; (repeat' split) <;> simp [State.bus_mk] <;> rfl
@[simp] theorem faultReport_bus (e : Ev) (b : Nat) : (Ev.faultReport e b).s.bus = e.s.bus := by
  simp only [faultReport]; (repeat' split) <;> simp [State.bus_mk] <;> rfl
@[simp] theorem resynchronise_bus (e : Ev) (b : Nat) (p : Presence) : (Ev.resynchronise e b p).s.bus = e.s.bus := by
  simp only [resynchronise]; (repeat' split) <;> simp [State.bus_mk] <;> rfl
@[simp] theorem bayReport_bus (e : Ev) (b : Nat) (p : Presence) (fault : Bool) (kind : ReportKind) : (Ev.bayReport e b p fault kind).s.bus = e.s.bus := by
  simp only [bayReport]; (repeat' split) <;> simp [State.bus_mk] <;> rfl
@[simp] theorem strayReport_bus (e : Ev) : (Ev.strayReport e).s.bus = e.s.bus := by
  simp only [strayReport]; (repeat' split) <;> simp [State.bus_mk] <;> rfl
@[simp] theorem debounceExpires_bus (e : Ev) (b : Nat) (d : Direction) : (Ev.debounceExpires e b d).s.bus = e.s.bus := by
  simp only [debounceExpires]; (repeat' split) <;> simp [State.bus_mk] <;> rfl
@[simp] theorem silenceExpires_bus (e : Ev) (b : Nat) : (Ev.silenceExpires e b).s.bus = e.s.bus := by
  simp only [silenceExpires]; (repeat' split) <;> simp [State.bus_mk] <;> rfl
@[simp] theorem holdLapses_bus (e : Ev) (b : Nat) : (Ev.holdLapses e b).s.bus = e.s.bus := by
  simp only [holdLapses]; (repeat' split) <;> simp [State.bus_mk] <;> rfl
@[simp] theorem countPaced_bus (e : Ev) (z : Nat) : (Ev.countPaced e z).s.bus = e.s.bus := by
  simp only [countPaced]; (repeat' split) <;> simp [State.bus_mk] <;> rfl
@[simp] theorem movePointer_bus (e : Ev) (d pointer : Nat) : (Ev.movePointer e d pointer).s.bus = e.s.bus := by
  simp only [movePointer]; (repeat' split) <;> simp [State.bus_mk] <;> rfl
@[simp] theorem makePromise_bus (e : Ev) (d : Nat) (t : Target) (c : BayClass) : (Ev.makePromise e d t c).s.bus = e.s.bus := by
  simp only [makePromise]; (repeat' split) <;> simp [State.bus_mk] <;> rfl
@[simp] theorem poolFull_bus (e : Ev) (d : Nat) : (Ev.poolFull e d).s.bus = e.s.bus := by
  simp only [poolFull]; (repeat' split) <;> simp [State.bus_mk] <;> rfl
@[simp] theorem promiseTo_bus (e : Ev) (d : Nat) (t : Target) (c : BayClass) : (Ev.promiseTo e d t c).s.bus = e.s.bus := by
  simp only [promiseTo]; (repeat' split) <;> simp [State.bus_mk] <;> rfl
@[simp] theorem tellZone_bus (e : Ev) (t : Target) : (Ev.tellZone e t).s.bus = e.s.bus := by
  simp only [tellZone]; (repeat' split) <;> simp [State.bus_mk] <;> rfl
@[simp] theorem startShow_bus (e : Ev) (d : Nat) : (Ev.startShow e d).s.bus = e.s.bus := by
  simp only [startShow]; (repeat' split) <;> simp [State.bus_mk] <;> rfl
@[simp] theorem direct_bus (e : Ev) (d : Nat) (entry : ChainEntry) (c : BayClass) (slow : Bool) : (Ev.direct e d entry c slow).s.bus = e.s.bus := by
  simp only [direct]; (repeat' split) <;> simp [State.bus_mk] <;> rfl
@[simp] theorem turnAway_bus (e : Ev) (d : Nat) : (Ev.turnAway e d).s.bus = e.s.bus := by
  simp only [turnAway]; (repeat' split) <;> simp [State.bus_mk] <;> rfl
@[simp] theorem consumeTransit_bus (e : Ev) (d : Nat) (c : BayClass) : (Ev.consumeTransit e d c).s.bus = e.s.bus := by
  simp only [consumeTransit]; (repeat' split) <;> simp [State.bus_mk] <;> rfl
@[simp] theorem countPassage_bus (e : Ev) (d : Nat) : (Ev.countPassage e d).s.bus = e.s.bus := by
  simp only [countPassage]; (repeat' split) <;> simp [State.bus_mk] <;> rfl
@[simp] theorem passage_bus (e : Ev) (d : Nat) (c : BayClass) : (Ev.passage e d c).s.bus = e.s.bus := by
  simp only [passage]; (repeat' split) <;> simp [State.bus_mk] <;> rfl
@[simp] theorem promiseLapses_bus (e : Ev) (place : Nat) (t : Target) : (Ev.promiseLapses e place t).s.bus = e.s.bus := by
  simp only [promiseLapses]; (repeat' split) <;> simp [State.bus_mk] <;> rfl
@[simp] theorem evaluateGas_bus (e : Ev) (z : Nat) (gas : Gas) : (Ev.evaluateGas e z gas).s.bus = e.s.bus := by
  simp only [evaluateGas]; (repeat' split) <;> simp [State.bus_mk] <;> rfl
@[simp] theorem becomeBlind_bus (e : Ev) (z : Nat) : (Ev.becomeBlind e z).s.bus = e.s.bus := by
  simp only [becomeBlind]; (repeat' split) <;> simp [State.bus_mk] <;> rfl
@[simp] theorem takeGasValues_bus (e : Ev) (z : Nat) : (Ev.takeGasValues e z).s.bus = e.s.bus := by
  simp only [takeGasValues]; (repeat' split) <;> simp [State.bus_mk] <;> rfl
@[simp] theorem clearBlind_bus (e : Ev) (z : Nat) : (Ev.clearBlind e z).s.bus = e.s.bus := by
  simp only [clearBlind]; (repeat' split) <;> simp [State.bus_mk] <;> rfl
@[simp] theorem evaluateZone_bus (e : Ev) (z : Nat) : (Ev.evaluateZone e z).s.bus = e.s.bus := by
  simp only [evaluateZone]; (repeat' split) <;> simp [State.bus_mk] <;> rfl
@[simp] theorem validReply_bus (e : Ev) (n co no2 : Nat) : (Ev.validReply e n co no2).s.bus = e.s.bus := by
  simp only [validReply]; (repeat' split) <;> simp [State.bus_mk] <;> rfl
@[simp] theorem faultReply_bus (e : Ev) (n : Nat) : (Ev.faultReply e n).s.bus = e.s.bus := by
  simp only [faultReply]; (repeat' split) <;> simp [State.bus_mk] <;> rfl
@[simp] theorem missReply_bus (e : Ev) (n : Nat) : (Ev.missReply e n).s.bus = e.s.bus := by
  simp only [missReply]; (repeat' split) <;> simp [State.bus_mk] <;> rfl
@[simp] theorem nextPoll_bus (e : Ev) (n : Nat) : (Ev.nextPoll e n).s.bus = e.s.bus := by
  simp only [nextPoll]; (repeat' split) <;> simp [State.bus_mk] <;> rfl
@[simp] theorem fallHoldExpires_bus (e : Ev) (z : Nat) (gas : Gas) : (Ev.fallHoldExpires e z gas).s.bus = e.s.bus := by
  simp only [fallHoldExpires]; (repeat' split) <;> simp [State.bus_mk] <;> rfl
@[simp] theorem restartStep_bus (e : Ev) (g : Nat) : (Ev.restartStep e g).s.bus = e.s.bus := by
  simp only [restartStep]; (repeat' split) <;> simp [State.bus_mk] <;> rfl
@[simp] theorem recover_bus (e : Ev) (g : Nat) : (Ev.recover e g).s.bus = e.s.bus := by
  simp only [recover]; (repeat' split) <;> simp [State.bus_mk] <;> rfl
@[simp] theorem resendNow_bus (e : Ev) (g : Nat) : (Ev.resendNow e g).s.bus = e.s.bus := by
  simp only [resendNow]; (repeat' split) <;> simp [State.bus_mk] <;> rfl
@[simp] theorem judgeGood_bus (e : Ev) (g stage : Nat) : (Ev.judgeGood e g stage).s.bus = e.s.bus := by
  simp only [judgeGood]; (repeat' split) <;> simp [State.bus_mk] <;> rfl
@[simp] theorem waitRetry_bus (e : Ev) (g : Nat) (st : CommandState) (seconds : Nat) : (Ev.waitRetry e g st seconds).s.bus = e.s.bus := by
  simp only [waitRetry]; (repeat' split) <;> simp [State.bus_mk] <;> rfl
@[simp] theorem judgeBad_bus (e : Ev) (g : Nat) (c : Command) : (Ev.judgeBad e g c).s.bus = e.s.bus := by
  simp only [judgeBad]; (repeat' split) <;> simp [State.bus_mk] <;> rfl
@[simp] theorem recordOutcome_bus (e : Ev) (l : DriveLine) (g : Nat) (o : LineOutcome) : (Ev.recordOutcome e l g o).s.bus = e.s.bus := by
  simp only [recordOutcome]; (repeat' split) <;> simp [State.bus_mk] <;> rfl
@[simp] theorem judge_bus (e : Ev) (g : Nat) : (Ev.judge e g).s.bus = e.s.bus := by
  simp only [judge]; (repeat' split) <;> simp [State.bus_mk] <;> rfl
@[simp] theorem lineOutcome_bus (e : Ev) (l : DriveLine) (g : Nat) (o : LineOutcome) : (Ev.lineOutcome e l g o).s.bus = e.s.bus := by
  simp only [lineOutcome]; (repeat' split) <;> simp [State.bus_mk] <;> rfl
@[simp] theorem retry_bus (e : Ev) (g : Nat) : (Ev.retry e g).s.bus = e.s.bus := by
  simp only [retry]; (repeat' split) <;> simp [State.bus_mk] <;> rfl
@[simp] theorem fadeExpires_bus (e : Ev) (k : Nat) : (Ev.fadeExpires e k).s.bus = e.s.bus := by
  simp only [fadeExpires]; (repeat' split) <;> simp [State.bus_mk] <;> rfl
@[simp] theorem endBoost_bus (e : Ev) (k p : Nat) : (Ev.endBoost e k p).s.bus = e.s.bus := by
  simp only [endBoost]; (repeat' split) <;> simp [State.bus_mk] <;> rfl
@[simp] theorem takeFlagAlone_bus (e : Ev) (k : Nat) : (Ev.takeFlagAlone e k).s.bus = e.s.bus := by
  simp only [takeFlagAlone]; (repeat' split) <;> simp [State.bus_mk] <;> rfl
@[simp] theorem replaceFailed_bus (e : Ev) (k : Nat) (l : List Nat) : (Ev.replaceFailed e k l).s.bus = e.s.bus := by
  simp only [replaceFailed]; (repeat' split) <;> simp [State.bus_mk] <;> rfl
@[simp] theorem stringOk_bus (e : Ev) (k : Nat) : (Ev.stringOk e k).s.bus = e.s.bus := by
  simp only [stringOk]; (repeat' split) <;> simp [State.bus_mk] <;> rfl
@[simp] theorem startStringRetry_bus (e : Ev) (k : Nat) : (Ev.startStringRetry e k).s.bus = e.s.bus := by
  simp only [startStringRetry]; (repeat' split) <;> simp [State.bus_mk] <;> rfl
@[simp] theorem stringMiss_bus (e : Ev) (k : Nat) : (Ev.stringMiss e k).s.bus = e.s.bus := by
  simp only [stringMiss]; (repeat' split) <;> simp [State.bus_mk] <;> rfl
@[simp] theorem signOk_bus (e : Ev) (d : Nat) : (Ev.signOk e d).s.bus = e.s.bus := by
  simp only [signOk]; (repeat' split) <;> simp [State.bus_mk] <;> rfl
@[simp] theorem startSignRetry_bus (e : Ev) (d : Nat) : (Ev.startSignRetry e d).s.bus = e.s.bus := by
  simp only [startSignRetry]; (repeat' split) <;> simp [State.bus_mk] <;> rfl
@[simp] theorem signMiss_bus (e : Ev) (d : Nat) : (Ev.signMiss e d).s.bus = e.s.bus := by
  simp only [signMiss]; (repeat' split) <;> simp [State.bus_mk] <;> rfl
@[simp] theorem freeLamp_bus (e : Ev) : (Ev.freeLamp e).s.bus = e.s.bus := by
  simp only [freeLamp]; (repeat' split) <;> simp [State.bus_mk] <;> rfl
@[simp] theorem lampOk_bus (e : Ev) (f : LampFrame) (places : List Nat) : (Ev.lampOk e f places).s.bus = e.s.bus := by
  simp only [lampOk]; (repeat' split) <;> simp [State.bus_mk] <;> rfl
@[simp] theorem lampMiss_bus (e : Ev) (f : LampFrame) : (Ev.lampMiss e f).s.bus = e.s.bus := by
  simp only [lampMiss]; (repeat' split) <;> simp [State.bus_mk] <;> rfl
@[simp] theorem done_bus (e : Ev) : (Ev.done e).1.s.bus = e.s.bus := by
  rfl
@[simp] theorem refuse_bus (e : Ev) (r : Reason) : (Ev.refuse e r).1.s.bus = e.s.bus := by
  rfl
@[simp] theorem placeHold_bus (e : Ev) (b duration : Nat) : (Ev.placeHold e b duration).s.bus = e.s.bus := by
  simp only [placeHold]; (repeat' split) <;> simp [State.bus_mk] <;> rfl
@[simp] theorem extendHold_bus (e : Ev) (b duration : Nat) : (Ev.extendHold e b duration).s.bus = e.s.bus := by
  simp only [extendHold]; (repeat' split) <;> simp [State.bus_mk] <;> rfl
@[simp] theorem commandHold_bus (e : Ev) (b duration : Nat) (extend : Bool) : (Ev.commandHold e b duration extend).1.s.bus = e.s.bus := by
  simp only [commandHold]; (repeat' split) <;> simp [State.bus_mk] <;> rfl
@[simp] theorem commandRelease_bus (e : Ev) (b : Nat) : (Ev.commandRelease e b).1.s.bus = e.s.bus := by
  simp only [commandRelease]; (repeat' split) <;> simp [State.bus_mk] <;> rfl
@[simp] theorem serviceOut_bus (e : Ev) (b : Nat) : (Ev.serviceOut e b).s.bus = e.s.bus := by
  simp only [serviceOut]; (repeat' split) <;> simp [State.bus_mk] <;> rfl
@[simp] theorem serviceIn_bus (e : Ev) (b : Nat) : (Ev.serviceIn e b).s.bus = e.s.bus := by
  simp only [serviceIn]; (repeat' split) <;> simp [State.bus_mk] <;> rfl
@[simp] theorem commandBayService_bus (e : Ev) (b direction : Nat) : (Ev.commandBayService e b direction).1.s.bus = e.s.bus := by
  simp only [commandBayService]; (repeat' split) <;> simp [State.bus_mk] <;> rfl
@[simp] theorem changeClass_bus (e : Ev) (b : Nat) (c : BayClass) : (Ev.changeClass e b c).s.bus = e.s.bus := by
  simp only [changeClass]; (repeat' split) <;> simp [State.bus_mk] <;> rfl
@[simp] theorem commandBayClass_bus (e : Ev) (b code : Nat) : (Ev.commandBayClass e b code).1.s.bus = e.s.bus := by
  simp only [commandBayClass]; (repeat' split) <;> simp [State.bus_mk] <;> rfl
@[simp] theorem commandZonePacing_bus (e : Ev) (z limit spacing lifetime : Nat) : (Ev.commandZonePacing e z limit spacing lifetime).1.s.bus = e.s.bus := by
  simp only [commandZonePacing]; (repeat' split) <;> simp [State.bus_mk] <;> rfl
@[simp] theorem setChain_bus (e : Ev) (d : Nat) (policy : Policy) (chain : List ChainEntry) : (Ev.setChain e d policy chain).s.bus = e.s.bus := by
  simp only [setChain]; (repeat' split) <;> simp [State.bus_mk] <;> rfl
@[simp] theorem commandChain_bus (e : Ev) (operands : List Nat) : (Ev.commandChain e operands).1.s.bus = e.s.bus := by
  simp only [commandChain]; (repeat' split) <;> simp [State.bus_mk] <;> rfl
@[simp] theorem setWeights_bus (e : Ev) (d : Nat) (phases : List (Option Nat)) : (Ev.setWeights e d phases).s.bus = e.s.bus := by
  simp only [setWeights]; (repeat' split) <;> simp [State.bus_mk] <;> rfl
@[simp] theorem commandWeights_bus (e : Ev) (d : Nat) (values : List Nat) : (Ev.commandWeights e d values).1.s.bus = e.s.bus := by
  simp only [commandWeights]; (repeat' split) <;> simp [State.bus_mk] <;> rfl
@[simp] theorem disablePoint_bus (e : Ev) (d : Nat) : (Ev.disablePoint e d).s.bus = e.s.bus := by
  simp only [disablePoint]; (repeat' split) <;> simp [State.bus_mk] <;> rfl
@[simp] theorem enablePoint_bus (e : Ev) (d : Nat) : (Ev.enablePoint e d).s.bus = e.s.bus := by
  simp only [enablePoint]; (repeat' split) <;> simp [State.bus_mk] <;> rfl
@[simp] theorem commandPointEnable_bus (e : Ev) (d direction : Nat) : (Ev.commandPointEnable e d direction).1.s.bus = e.s.bus := by
  simp only [commandPointEnable]; (repeat' split) <;> simp [State.bus_mk] <;> rfl
@[simp] theorem setMarks_bus (e : Ev) (z : Nat) (gas : Gas) (m : Marks) : (Ev.setMarks e z gas m).s.bus = e.s.bus := by
  simp only [setMarks]; (repeat' split) <;> simp [State.bus_mk] <;> rfl
@[simp] theorem commandZoneMarks_bus (e : Ev) (z gasCode : Nat) (m : Marks) : (Ev.commandZoneMarks e z gasCode m).1.s.bus = e.s.bus := by
  simp only [commandZoneMarks]; (repeat' split) <;> simp [State.bus_mk] <;> rfl
@[simp] theorem commandStageMap_bus (e : Ev) (z : Nat) (stages : List Nat) : (Ev.commandStageMap e z stages).1.s.bus = e.s.bus := by
  simp only [commandStageMap]; (repeat' split) <;> simp [State.bus_mk] <;> rfl
@[simp] theorem sceneRate_bus (e : Ev) (k : Nat) (fade : Option Nat) : (Ev.sceneRate e k fade).s.bus = e.s.bus := by
  simp only [sceneRate]; (repeat' split) <;> simp [State.bus_mk] <;> rfl
@[simp] theorem scenePair_bus (fade : Option Nat) (e : Ev) (pair : Nat × Nat) : (Ev.scenePair fade e pair).s.bus = e.s.bus := by
  simp only [scenePair]; (repeat' split) <;> simp [State.bus_mk] <;> rfl
@[simp] theorem commandScene_bus (e : Ev) (operands : List Nat) (fade : Option Nat) : (Ev.commandScene e operands fade).1.s.bus = e.s.bus := by
  simp only [commandScene]; (repeat' split) <;> simp [State.bus_mk] <;> rfl
@[simp] theorem commandCap_bus (e : Ev) (v : Nat) : (Ev.commandCap e v).1.s.bus = e.s.bus := by
  simp only [commandCap]; (repeat' split) <;> simp [State.bus_mk] <;> rfl
@[simp] theorem clearZone_bus (e : Ev) (z : Nat) : (Ev.clearZone e z).s.bus = e.s.bus := by
  simp only [clearZone]; (repeat' split) <;> simp [State.bus_mk] <;> rfl
@[simp] theorem clearPoint_bus (e : Ev) (d : Nat) : (Ev.clearPoint e d).s.bus = e.s.bus := by
  simp only [clearPoint]; (repeat' split) <;> simp [State.bus_mk] <;> rfl
@[simp] theorem clearGroup_bus (e : Ev) (g : Nat) : (Ev.clearGroup e g).s.bus = e.s.bus := by
  simp only [clearGroup]; (repeat' split) <;> simp [State.bus_mk] <;> rfl
@[simp] theorem clearNotices_bus (e : Ev) : (Ev.clearNotices e).s.bus = e.s.bus := by
  simp only [clearNotices]; (repeat' split) <;> simp [State.bus_mk] <;> rfl
@[simp] theorem commandClearCounts_bus (e : Ev) : (Ev.commandClearCounts e).1.s.bus = e.s.bus := by
  simp only [commandClearCounts, done, markGeneral_s, modifyRunner_bus, clearNotices_bus]
  rw [forEach_bus _ _ _ (by intros; simp), forEach_bus _ _ _ (by intros; simp)]
  simp only [markGeneral_s, modify_s]
  rw [State.bus_mk]
  exact forEach_bus e _ _ (by intros; simp)
@[simp] theorem clearPool_bus (e : Ev) : (Ev.clearPool e).s.bus = e.s.bus := by
  simp only [clearPool, markGeneral_s]
  rw [forEach_bus _ _ _ (by intros; rfl), forEach_bus _ _ _ (by intros; rfl)]; rfl
@[simp] theorem restartPoint_bus (e : Ev) (d : Nat) : (Ev.restartPoint e d).s.bus = e.s.bus := by
  simp only [restartPoint]; (repeat' split) <;> simp [State.bus_mk] <;> rfl
@[simp] theorem resendStage_bus (e : Ev) (g : Nat) : (Ev.resendStage e g).s.bus = e.s.bus := by
  simp only [resendStage]; (repeat' split) <;> simp [State.bus_mk] <;> rfl
@[simp] theorem restartGroup_bus (e : Ev) (g : Nat) : (Ev.restartGroup e g).s.bus = e.s.bus := by
  simp only [restartGroup]; (repeat' split) <;> simp [State.bus_mk] <;> rfl
@[simp] theorem restartString_bus (e : Ev) (k : Nat) : (Ev.restartString e k).s.bus = e.s.bus := by
  simp only [restartString]; (repeat' split) <;> simp [State.bus_mk] <;> rfl
@[simp] theorem commandRestart_bus (e : Ev) : (Ev.commandRestart e).1.s.bus = e.s.bus := by
  simp only [commandRestart]; (repeat' split) <;> simp [State.bus_mk] <;> rfl
@[simp] theorem runCommand_bus (e : Ev) (c : ListCommand) (operands : List Nat) (options : List (ListOption × Nat)) : (Ev.runCommand e c operands options).1.s.bus = e.s.bus := by
  simp only [runCommand]; (repeat' split) <;> simp [State.bus_mk] <;> rfl
@[simp] theorem checkEntry_bus (e : Ev) (c : ListCommand) (words : List Word) : (Ev.checkEntry e c words).1.s.bus = e.s.bus := by
  simp only [checkEntry]; (repeat' split) <;> simp [State.bus_mk] <;> rfl
@[simp] theorem statusDue_bus (e : Ev) (o : EntryOutcome) : (Ev.statusDue e o).s.bus = e.s.bus := by
  simp only [statusDue]; (repeat' split) <;> simp [State.bus_mk] <;> rfl
@[simp] theorem refuseHeader_bus (e : Ev) (h : Word) : (Ev.refuseHeader e h).s.bus = e.s.bus := by
  simp only [refuseHeader]; (repeat' split) <;> simp [State.bus_mk] <;> rfl
@[simp] theorem runEntry_bus (e : Ev) (words : List Word) (h : Word) : (Ev.runEntry e words h).s.bus = e.s.bus := by
  simp only [runEntry]; (repeat' split) <;> simp [State.bus_mk] <;> rfl
@[simp] theorem afterFetch_bus (e : Ev) (words : List Word) : (Ev.afterFetch e words).s.bus = e.s.bus := by
  simp only [afterFetch]; (repeat' split) <;> simp [State.bus_mk] <;> rfl
@[simp] theorem endList_bus (e : Ev) (result : ListResult) (silent : Bool) : (Ev.endList e result silent).s.bus = e.s.bus := by
  simp only [endList]; (repeat' split) <;> simp [State.bus_mk] <;> rfl
@[simp] theorem closingDue_bus (e : Ev) (o : EntryOutcome) (result : ListResult) (status : Word) : (Ev.closingDue e o result status).s.bus = e.s.bus := by
  simp only [closingDue]; (repeat' split) <;> simp [State.bus_mk] <;> rfl
@[simp] theorem nextEntry_bus (e : Ev) (o : EntryOutcome) : (Ev.nextEntry e o).s.bus = e.s.bus := by
  simp only [nextEntry]; (repeat' split) <;> simp [State.bus_mk] <;> rfl
@[simp] theorem decideEntry_bus (e : Ev) (o : EntryOutcome) : (Ev.decideEntry e o).s.bus = e.s.bus := by
  simp only [decideEntry]; (repeat' split) <;> simp [State.bus_mk] <;> rfl

end Sys2Proof.Machine.Ev
end

