-- ==== Sys2Proof/Laws/Tables.lean ====
section
/-! SUPPORT. What reading a table gives after each of its updates. -/

namespace Sys2Proof.Table

variable {α : Type} {n : Nat}

theorem ext_rows {t u : Table α n} (h : t.rows = u.rows) : t = u := by
  cases t; cases u; simp_all

@[simp] theorem rows_modify (t : Table α n) (i : Nat) (f : α → α) : (t.modify i f).rows = t.rows.modify i f := rfl
@[simp] theorem rows_set (t : Table α n) (i : Nat) (a : α) : (t.set i a).rows = t.rows.modify i (fun _ => a) := rfl
@[simp] theorem rows_mapIdx (t : Table α n) (f : Nat → α → α) : (t.mapIdx f).rows = mapRows f 0 t.rows := rfl
@[simp] theorem rows_replicate (a : α) : (replicate n a).rows = List.replicate n a := rfl

/-- A record below the size, read after it was modified. -/
theorem getD_modify_same (t : Table α n) {i : Nat} (h : i < n) (f : α → α) (d : α) :
    (t.modify i f).getD i d = f (t.getD i d) := by
  have h' : i < t.rows.length := by rw [t.size]; exact h
  simp [getD, List.getD_eq_getElem?_getD, h']

/-- Another record is kept. -/
@[simp] theorem getD_modify_other (t : Table α n) {i j : Nat} (h : i ≠ j) (f : α → α) (d : α) :
    (t.modify i f).getD j d = t.getD j d := by
  simp [getD, List.getD_eq_getElem?_getD, h]

/-- A record beyond the size reads as the default, before and after. -/
theorem getD_beyond (t : Table α n) {i : Nat} (h : n ≤ i) (d : α) : t.getD i d = d := by
  have h' : t.rows.length ≤ i := by rw [t.size]; exact h
  simp [getD, List.getD_eq_getElem?_getD, h']

theorem getD_set_same (t : Table α n) {i : Nat} (h : i < n) (a d : α) : (t.set i a).getD i d = a :=
  getD_modify_same t h _ d

@[simp] theorem getD_set_other (t : Table α n) {i j : Nat} (h : i ≠ j) (a d : α) : (t.set i a).getD j d = t.getD j d :=
  getD_modify_other t h _ d

/-- A record, read after one modification whose effect an invariant of reading hides. -/
theorem getD_modify_of {β : Type} (t : Table α n) (i j : Nat) (f : α → α) (d : α) (g : α → β)
    (h : ∀ a, g (f a) = g a) : g ((t.modify i f).getD j d) = g (t.getD j d) := by
  by_cases hij : i = j
  · subst hij
    by_cases hi : i < n
    · rw [getD_modify_same t hi, h]
    · rw [getD_beyond _ (Nat.le_of_not_lt hi), getD_beyond _ (Nat.le_of_not_lt hi)]
  · rw [getD_modify_other t hij]

@[simp] theorem getD_replicate (m i : Nat) (a : α) : (replicate m a).getD i a = a := by
  by_cases h : i < m <;> simp [getD, List.getD_eq_getElem?_getD, h]

theorem getElem?_mapRows (f : Nat → α → α) : ∀ (k : Nat) (l : List α) (i : Nat),
    (mapRows f k l)[i]? = (l[i]?).map (f (k + i))
  | _, [], _ => by simp [mapRows]
  | k, _ :: rest, 0 => by simp [mapRows]
  | k, _ :: rest, i + 1 => by
    simp only [mapRows, List.getElem?_cons_succ, getElem?_mapRows f (k + 1) rest i]
    rw [show k + 1 + i = k + (i + 1) by omega]

/-- A record below the size, read after every record was mapped. -/
theorem getD_mapIdx (t : Table α n) (f : Nat → α → α) {i : Nat} (h : i < n) (d : α) :
    (t.mapIdx f).getD i d = f i (t.getD i d) := by
  have h' : i < t.rows.length := by rw [t.size]; exact h
  simp [getD, List.getD_eq_getElem?_getD, getElem?_mapRows, h']

/-- A record, read after every record was mapped by a map whose effect an invariant of reading hides. -/
theorem getD_mapIdx_of {β : Type} (t : Table α n) (f : Nat → α → α) (j : Nat) (d : α) (g : α → β)
    (h : ∀ i a, g (f i a) = g a) : g ((t.mapIdx f).getD j d) = g (t.getD j d) := by
  by_cases hj : j < n
  · rw [getD_mapIdx t f hj, h]
  · rw [getD_beyond _ (Nat.le_of_not_lt hj), getD_beyond _ (Nat.le_of_not_lt hj)]

theorem mapRows_id : ∀ (f : Nat → α → α) (k : Nat) (l : List α), (∀ i a, f i a = a) → mapRows f k l = l
  | _, _, [], _ => rfl
  | f, k, a :: rest, h => by rw [mapRows, h, mapRows_id f (k + 1) rest h]

/-- Equal tables read alike everywhere, and the other way round. -/
theorem ext_getD {t u : Table α n} (d : α) (h : ∀ i, t.getD i d = u.getD i d) : t = u := by
  apply ext_rows
  apply List.ext_getElem
  · rw [t.size, u.size]
  · intro i h1 h2
    have := h i
    simpa [getD, List.getD_eq_getElem?_getD, h1, h2] using this

end Sys2Proof.Table

namespace Sys2Proof.Machine

namespace PerLine
variable {α : Type}

@[simp] theorem get_set_same (p : PerLine α) (l : DriveLine) (v : α) : (p.set l v).get l = v := by
  cases l <;> rfl

@[simp] theorem get_set_other (p : PerLine α) {l m : DriveLine} (h : l ≠ m) (v : α) : (p.set l v).get m = p.get m := by
  cases l <;> cases m <;> first | rfl | exact absurd rfl h

theorem ext_get {p q : PerLine α} (h : ∀ l, p.get l = q.get l) : p = q := by
  cases p; cases q
  have ha := h .a; have hb := h .b; have hc := h .c
  simp only [get] at ha hb hc
  subst ha hb hc; rfl

end PerLine

namespace PerClass
variable {α : Type}

@[simp] theorem get_set_same (p : PerClass α) (c : BayClass) (v : α) : (p.set c v).get c = v := by
  cases c <;> rfl

@[simp] theorem get_set_other (p : PerClass α) {c d : BayClass} (h : c ≠ d) (v : α) : (p.set c v).get d = p.get d := by
  cases c <;> cases d <;> first | rfl | exact absurd rfl h

end PerClass

end Sys2Proof.Machine
end

