-- ==== Sys2Proof/Laws/Commit.lean ====
section
/-! SUPPORT. The end of an event: what it leaves done, what it leaves as it is, and that it does nothing to a state in which
nothing is left to do. -/

namespace Sys2Proof.Machine

/-! ## What a summary number rests on -/

/-- Availability rests on the zones and the pool. -/
theorem available_congr {s t : State} (hz : s.zones = t.zones) (hp : s.pool = t.pool) (z : Nat) (c : BayClass) :
    s.available z c = t.available z c := by
  simp [State.available, State.zone, State.zonePromisesOf, hz, hp]

/-- Reach rests on the configuration, the zones, the pool and which DPs are DISABLED. -/
theorem reachFuel_congr {s t : State} (hc : s.plant = t.plant) (hz : s.zones = t.zones) (hp : s.pool = t.pool)
    (hd : ∀ d, ((s.point d).state = .disabled ↔ (t.point d).state = .disabled)) :
    ∀ fuel d c, s.reachFuel fuel d c = t.reachFuel fuel d c
  | 0, _, _ => rfl
  | fuel + 1, d, c => by
    have ih := reachFuel_congr hc hz hp hd fuel
    simp only [State.reachFuel, State.reachWith, State.pointConfig, hc]
    congr 1
    apply List.map_congr_left
    intro entry _
    cases entry.target with
    | zone z =>
      have hzone : s.zone z = t.zone z := by simp [State.zone, hz]
      simp only [available_congr hz hp, hzone]
    | point d' => simp only [ih, State.transitOf, hp, hd d']

/-- The summary number rests on the same. -/
theorem summaryNumber_congr {s t : State} (hc : s.plant = t.plant) (hz : s.zones = t.zones) (hp : s.pool = t.pool)
    (hd : ∀ d, ((s.point d).state = .disabled ↔ (t.point d).state = .disabled)) (d : Nat) :
    s.summaryNumber d = t.summaryNumber d := by
  simp only [State.summaryNumber, State.reach, reachFuel_congr hc hz hp hd]

namespace Ev

/-! ## Summary numbers (R66) -/

theorem followSummary_point_state (e : Ev) (d d' : Nat) : ((e.followSummary d).s.point d').state = (e.s.point d').state := by
  simp only [followSummary]
  split
  · rename_i h
    simp only [Bool.and_eq_true, decide_eq_true_eq] at h
    by_cases hd : d = d'
    · subst hd
      by_cases hlt : d < 24
      · simp [setFace, setSignPending, State.point, Table.getD_modify_same _ hlt]
        simpa [State.point] using h.1.symm
      · simp [setFace, setSignPending, State.point, Table.getD_beyond _ (Nat.le_of_not_lt hlt)]
    · simp [setFace, setSignPending, State.point, Table.getD_modify_other _ hd]
  · rfl

theorem followSummary_number (e : Ev) (d d' : Nat) : (e.followSummary d).s.summaryNumber d' = e.s.summaryNumber d' :=
  summaryNumber_congr (by simpa [State.base] using congrArg (·.2.2.1) (followSummary_base e d)) (by simp) (by simp)
    (fun x => by rw [followSummary_point_state]) d'

theorem followSummary_face_other (e : Ev) {d d' : Nat} (h : d ≠ d') :
    ((e.followSummary d).s.point d').face = (e.s.point d').face := by
  simp only [followSummary]
  split
  · simp [setFace, setSignPending, State.point, Table.getD_modify_other _ h]
  · rfl

theorem followSummary_face_same (e : Ev) (d : Nat) (h : (e.s.point d).state = .idle) :
    ((e.followSummary d).s.point d).face = .summary (e.s.summaryNumber d) := by
  have hlt : d < 24 := by
    by_cases hlt : d < 24
    · exact hlt
    · simp [State.point, Table.getD_beyond _ (Nat.le_of_not_lt hlt), Point.reset] at h
  simp only [followSummary, h]
  split
  · simp [setFace, setSignPending, State.point, Table.getD_modify_same _ hlt]
  · rename_i h'
    simpa using h'

theorem followAll (l : List Nat) : ∀ (e : Ev),
    (∀ d, ((e.forEach l followSummary).s.point d).state = (e.s.point d).state)
      ∧ (∀ d, (e.forEach l followSummary).s.summaryNumber d = e.s.summaryNumber d)
      ∧ (∀ d, (e.s.point d).state = .idle →
          (d ∈ l ∨ (e.s.point d).face = .summary (e.s.summaryNumber d)) →
          ((e.forEach l followSummary).s.point d).face = .summary (e.s.summaryNumber d)) := by
  induction l with
  | nil => intro e; exact ⟨fun _ => rfl, fun _ => rfl, fun d _ h => by simpa [forEach_nil] using h⟩
  | cons a l ih =>
    intro e
    rw [forEach_cons]
    obtain ⟨h1, h2, h3⟩ := ih (e.followSummary a)
    refine ⟨fun d => by rw [h1, followSummary_point_state], fun d => by rw [h2, followSummary_number], fun d hd h => ?_⟩
    have := h3 d (by rw [followSummary_point_state]; exact hd)
    rw [followSummary_number] at this
    apply this
    by_cases hda : a = d
    · subst hda; exact Or.inr (followSummary_face_same e a hd)
    · rcases h with h | h
      · rcases List.mem_cons.mp h with h | h
        · exact absurd h.symm hda
        · exact Or.inl h
      · exact Or.inr (by rw [followSummary_face_other e hda]; exact h)

@[simp] theorem followSummaries_state (e : Ev) (d : Nat) :
    (e.followSummaries.s.point d).state = (e.s.point d).state := (followAll _ e).1 d

theorem followSummaries_follow (e : Ev) : e.followSummaries.s.SummariesFollow := by
  intro d hd hs
  have hp : e.followSummaries.s.plant = e.s.plant := by
    simpa [State.base] using congrArg (·.2.2.1) (followSummaries_base e)
  have h := followAll (List.range e.s.pointCount) e
  have hd' : d < e.s.pointCount := by simpa [State.pointCount, hp] using hd
  have := h.2.2 d (by rw [← h.1 d]; exact hs) (Or.inl (List.mem_range.mpr hd'))
  rw [show e.followSummaries = e.forEach (List.range e.s.pointCount) followSummary from rfl, this, h.2.1]

theorem followSummary_of_follows {e : Ev} {d : Nat}
    (h : (e.s.point d).state = .idle → (e.s.point d).face = .summary (e.s.summaryNumber d)) : e.followSummary d = e := by
  simp only [followSummary]
  split
  · rename_i h'
    simp only [Bool.and_eq_true, decide_eq_true_eq, ne_eq, decide_not, Bool.not_eq_true'] at h'
    exact absurd (h h'.1) (by simpa using h'.2)
  · rfl

theorem forEach_id {α : Type} (l : List α) (f : Ev → α → Ev) (e : Ev) (h : ∀ a ∈ l, f e a = e) : e.forEach l f = e := by
  induction l with
  | nil => rfl
  | cons a l ih =>
    rw [forEach_cons, h a (List.mem_cons_self ..), ih fun b hb => h b (List.mem_cons_of_mem _ hb)]

theorem followSummaries_id {e : Ev} (h : e.s.SummariesFollow) : e.followSummaries = e :=
  forEach_id _ _ e fun d hd => followSummary_of_follows (h d (List.mem_range.mp hd))

/-! ## Idle links -/

theorem startLine_line_other (e : Ev) {l m : DriveLine} (h : l ≠ m) : (e.startLine l).s.line m = e.s.line m := by
  simp only [startLine]
  split
  · simp [State.line, PerLine.get_set_other _ h]
  · rfl

theorem startLine_served (e : Ev) (l : DriveLine) :
    ((e.startLine l).s.line l).activity = .idle → ((e.startLine l).s.line l).queue = [] := by
  simp only [startLine]
  split
  · simp [State.line]
  · rename_i h
    intro ha
    cases hq : (e.s.line l).queue with
    | nil => rfl
    | cons g rest => exact absurd hq (h g rest ha)

theorem startLine_id {e : Ev} {l : DriveLine} (h : (e.s.line l).activity = .idle → (e.s.line l).queue = []) :
    e.startLine l = e := by
  simp only [startLine]
  split
  · rename_i h1 h2
    rw [h h1] at h2; cases h2
  · rfl

theorem startLines_served (e : Ev) (l : DriveLine) :
    ((e.forEach allLines startLine).s.line l).activity = .idle →
      ((e.forEach allLines startLine).s.line l).queue = [] := by
  show (((((e.startLine .a).startLine .b).startLine .c).s.line l).activity = .idle → _)
  cases l with
  | a =>
    rw [show e.forEach allLines startLine = ((e.startLine .a).startLine .b).startLine .c from rfl,
      startLine_line_other _ (by decide), startLine_line_other _ (by decide)]
    exact startLine_served e .a
  | b =>
    rw [show e.forEach allLines startLine = ((e.startLine .a).startLine .b).startLine .c from rfl,
      startLine_line_other _ (by decide)]
    exact startLine_served _ .b
  | c => exact startLine_served _ .c

/-- Round-robin finds nothing only among no candidates. -/
theorem nextAbove_none {last : Nat} {l : List Nat} (h : nextAbove last l = none) : l = [] := by
  unfold nextAbove at h
  split at h
  · cases h
  · cases l with
    | nil => rfl
    | cons a l => simp at h

/-- Round-robin finds a candidate. -/
theorem nextAbove_mem {last i : Nat} {l : List Nat} (h : nextAbove last l = some i) : i ∈ l := by
  unfold nextAbove at h
  split at h
  · rename_i j hj
    obtain rfl : j = i := by simpa using h
    exact List.mem_of_find?_eq_some hj
  · exact List.mem_of_mem_head? h

theorem startLamp_served (e : Ev) : e.startLamp.s.lampLink.frame = none →
    (∀ d, e.startLamp.s.signEligible d = false) ∧ ∀ k, e.startLamp.s.stringEligible k = false := by
  unfold startLamp
  by_cases hf : e.s.lampLink.frame.isSome = true
  · rw [if_pos hf]; intro h; rw [h] at hf; cases hf
  · rw [if_neg hf]
    cases hsign : nextAbove e.s.lampLink.lastSign ((List.range e.s.pointCount).filter e.s.signEligible) with
    | some d =>
      cases hstring : nextAbove e.s.lampLink.lastString ((List.range e.s.stringCount).filter e.s.stringEligible) with
      | some k => dsimp only; split <;> (intro h; simp [sendSign, sendString] at h)
      | none => intro h; simp [sendSign] at h
    | none =>
      cases hstring : nextAbove e.s.lampLink.lastString ((List.range e.s.stringCount).filter e.s.stringEligible) with
      | some k => intro h; simp [sendString] at h
      | none =>
        intro _
        have h2 := nextAbove_none hsign
        have h3 := nextAbove_none hstring
        constructor
        · intro d
          by_cases hd : d < e.s.pointCount
          · simpa using List.filter_eq_nil_iff.mp h2 d (List.mem_range.mpr hd)
          · simp [State.signEligible, hd]
        · intro k
          by_cases hk : k < e.s.stringCount
          · simpa using List.filter_eq_nil_iff.mp h3 k (List.mem_range.mpr hk)
          · simp [State.stringEligible, hk]

theorem startLamp_id {e : Ev} (h : e.s.lampLink.frame = none →
    (∀ d, e.s.signEligible d = false) ∧ ∀ k, e.s.stringEligible k = false) : e.startLamp = e := by
  simp only [startLamp]
  split
  · rfl
  · rename_i h1
    have h2 := h (by simpa using h1)
    have e1 : (List.range e.s.pointCount).filter e.s.signEligible = [] :=
      List.filter_eq_nil_iff.mpr fun d _ => by simp [h2.1 d]
    have e2 : (List.range e.s.stringCount).filter e.s.stringEligible = [] :=
      List.filter_eq_nil_iff.mpr fun k _ => by simp [h2.2 k]
    rw [e1, e2]; rfl

theorem startBayLink_served (e : Ev) : e.startBayLink.s.bayLink.frame = none →
    ∀ b, b < e.startBayLink.s.bayCount → e.startBayLink.s.indicatorPending b = false := by
  unfold startBayLink
  by_cases hf : e.s.bayLink.frame.isSome = true
  · rw [if_pos hf]; intro h; rw [h] at hf; cases hf
  · rw [if_neg hf]
    cases hn : nextAbove e.s.bayLink.last ((List.range e.s.bayCount).filter e.s.indicatorPending) with
    | some b => intro h; simp at h
    | none =>
      intro _ b hb
      simpa using List.filter_eq_nil_iff.mp (nextAbove_none hn) b (List.mem_range.mpr hb)

theorem startBayLink_id {e : Ev} (h : e.s.bayLink.frame = none →
    ∀ b, b < e.s.bayCount → e.s.indicatorPending b = false) : e.startBayLink = e := by
  simp only [startBayLink]
  split
  · rfl
  · rename_i h1
    have h2 := h (by simpa using h1)
    have e1 : (List.range e.s.bayCount).filter e.s.indicatorPending = [] :=
      List.filter_eq_nil_iff.mpr fun b hb => by simp [h2 b (List.mem_range.mp hb)]
    rw [e1]; rfl

/-! ## Notices and marks -/

theorem dropNotices_respects (e : Ev) : e.dropNotices.s.RingRespected := by
  intro h
  simp only [dropNotices] at h ⊢
  split
  · simp
  · rename_i h1
    split at h
    · contradiction
    · simp only [Bool.and_eq_true, not_and, Bool.not_eq_true, Bool.not_eq_false'] at h1
      simpa using h1 h

theorem dropNotices_id {e : Ev} (h : e.s.RingRespected) : e.dropNotices = e := by
  simp only [dropNotices]
  split
  · rename_i h1
    simp only [Bool.and_eq_true] at h1
    rw [h h1.1] at h1; simp at h1
  · rfl

@[simp] theorem commitMarks_s (e : Ev) : e.commitMarks.s =
    { e.s with path := e.s.path.markCells (sortedSet (e.marks.filterMap e.s.addressOf)) } := rfl

theorem raiseDrain_raised (p : MemoryPath) : Config.drainMark ≤ p.raiseDrain.queue.length → p.raiseDrain.drain = true := by
  unfold MemoryPath.raiseDrain
  split
  · intro _; rfl
  · rename_i h; intro h'; exact absurd h' h

theorem commitMarks_raised (e : Ev) : e.commitMarks.s.DrainRaised := by
  intro h
  exact raiseDrain_raised _ h

/-- With no cell marked and the drain flag as it should be, the marks of an event do nothing. -/
theorem commitMarks_id {s : State} (h : s.DrainRaised) : (Ev.start s).commitMarks = Ev.start s := by
  have h' : s.path.markCells [] = s.path := by
    show s.path.raiseDrain = s.path
    unfold MemoryPath.raiseDrain
    by_cases hq : Config.drainMark ≤ s.path.queue.length
    · rw [if_pos hq]
      have := h hq
      cases hp : s.path; rw [hp] at this; simp only at this; rw [this]
    · rw [if_neg hq]
  show ({ (Ev.start s) with s := { s with path := s.path.markCells [] }, marks := [] } : Ev) = Ev.start s
  rw [h']; rfl

end Ev

/-! ## What each part of a rested state rests on -/

theorem State.SummariesFollow.congr {s t : State} (h : s.SummariesFollow) (hc : t.plant = s.plant) (hz : t.zones = s.zones)
    (hp : t.pool = s.pool) (hd : t.points = s.points) : t.SummariesFollow := by
  intro d hlt hs
  have hpt : ∀ d, t.point d = s.point d := fun d => by simp [State.point, hd]
  rw [hpt, h d (by simpa [State.pointCount, hc] using hlt) (by rw [← hpt]; exact hs)]
  rw [summaryNumber_congr hc.symm hz.symm hp.symm (fun x => by rw [hpt]) d]

theorem State.LinesServed.congr {s t : State} (h : s.LinesServed) (hl : t.loader = s.loader) (hn : t.lines = s.lines) :
    t.LinesServed := by
  intro hs l
  simpa [State.line, hn] using h (by simpa [State.inService, hl] using hs) l

theorem State.LampServed.congr {s t : State} (h : s.LampServed) (hl : t.loader = s.loader) (hc : t.plant = s.plant)
    (hn : t.lampLink = s.lampLink) (hk : t.strings = s.strings) : t.LampServed := by
  intro hs hf
  obtain ⟨h1, h2⟩ := h (by simpa [State.inService, hl] using hs) (by rw [← hn]; exact hf)
  constructor
  · intro d; rw [← h1 d]; unfold State.signEligible State.pointCount State.signPending; rw [hc, hn]
  · intro k; rw [← h2 k]
    unfold State.stringEligible State.stringCount State.stringPending State.lampString; rw [hc, hn, hk]

theorem State.BayLinkServed.congr {s t : State} (h : s.BayLinkServed) (hl : t.loader = s.loader) (hc : t.plant = s.plant)
    (hn : t.bayLink = s.bayLink) : t.BayLinkServed := by
  intro hs hf b hb
  simpa [State.indicatorPending, hn] using
    h (by simpa [State.inService, hl] using hs) (by rw [← hn]; exact hf) b (by simpa [State.bayCount, hc] using hb)

/-! ## What states with the same base share -/

theorem State.base_loader {s t : State} (h : t.base = s.base) : t.loader = s.loader := congrArg (·.2.1) h
theorem State.base_plant {s t : State} (h : t.base = s.base) : t.plant = s.plant := congrArg (·.2.2.1) h
theorem State.base_pending {s t : State} (h : t.base = s.base) : t.pending = s.pending := congrArg (·.1) h
theorem State.base_stray {s t : State} (h : t.base = s.base) : t.stray = s.stray := congrArg (·.2.2.2.1) h
theorem State.base_sensors {s t : State} (h : t.base = s.base) : t.sensors = s.sensors := congrArg (·.2.2.2.2.1) h
theorem State.base_gas {s t : State} (h : t.base = s.base) : t.gas = s.gas := congrArg (·.2.2.2.2.2.1) h
theorem State.base_airLink {s t : State} (h : t.base = s.base) : t.airLink = s.airLink := congrArg (·.2.2.2.2.2.2.1) h
theorem State.base_allFull {s t : State} (h : t.base = s.base) : t.allFull = s.allFull := congrArg (·.2.2.2.2.2.2.2.1) h
theorem State.base_runner {s t : State} (h : t.base = s.base) : t.runner = s.runner :=
  congrArg (·.2.2.2.2.2.2.2.2.1) h
theorem State.base_mem {s t : State} (h : t.base = s.base) : t.mem = s.mem := congrArg (·.2.2.2.2.2.2.2.2.2) h

namespace Ev

@[simp] theorem commitMarks_base (e : Ev) : e.commitMarks.s.base = e.s.base := rfl

theorem startLinks_served (e : Ev) :
    e.startLinks.s.LinesServed ∧ e.startLinks.s.LampServed ∧ e.startLinks.s.BayLinkServed := by
  unfold startLinks
  by_cases hs : e.s.inService = true
  · rw [if_pos hs]
    generalize he1 : e.forEach allLines startLine = e1
    have hb1 : e1.startLamp.s.base = e1.s.base := by simp
    have hb2 : e1.startLamp.startBayLink.s.base = e1.startLamp.s.base := by simp
    refine ⟨?_, ?_, fun _ hf => startBayLink_served _ hf⟩
    · exact State.LinesServed.congr (s := e1.s) (fun _ l => he1 ▸ startLines_served e l)
        (by rw [State.base_loader hb2, State.base_loader hb1]) (by simp)
    · exact State.LampServed.congr (s := e1.startLamp.s) (fun _ hf => startLamp_served _ hf) (State.base_loader hb2)
        (State.base_plant hb2) (by simp) (by simp)
  · rw [if_neg hs]
    exact ⟨fun h => absurd h hs, fun h => absurd h hs, fun h => absurd h hs⟩

/-! ## The whole end of an event -/

/-- An event that has marked nothing, handed no claim and touched no string settles to itself. -/
theorem settle_id (s : State) : (Ev.start s).settle = Ev.start s := rfl

/-- What is left done by the end of any event. -/
theorem commit_done (e : Ev) : e.commit.s.Settled := by
  unfold commit
  generalize e.settle = e0
  have hfollow := followSummaries_follow e0
  generalize e0.followSummaries = e1 at *
  obtain ⟨h1, h2, h3⟩ := startLinks_served e1
  have hb : e1.startLinks.s.base = e1.s.base := by simp
  have hf2 := hfollow.congr (t := e1.startLinks.s) (State.base_plant hb) (by simp) (by simp) (by simp)
  generalize e1.startLinks = e2 at *
  have hb : e2.dropNotices.s.base = e2.s.base := by simp
  have h4 := hf2.congr (t := e2.dropNotices.s) (State.base_plant hb) (by simp) (by simp) (by simp)
  have h5 := h1.congr (t := e2.dropNotices.s) (State.base_loader hb) (by simp)
  have h6 := h2.congr (t := e2.dropNotices.s) (State.base_loader hb) (State.base_plant hb) (by simp) (by simp)
  have h7 := h3.congr (t := e2.dropNotices.s) (State.base_loader hb) (State.base_plant hb) (by simp)
  have h8 := dropNotices_respects e2
  generalize e2.dropNotices = e3 at *
  exact ⟨h4.congr (t := e3.commitMarks.s) rfl rfl rfl rfl, h5.congr (t := e3.commitMarks.s) rfl rfl,
    h6.congr (t := e3.commitMarks.s) rfl rfl rfl rfl, h7.congr (t := e3.commitMarks.s) rfl rfl rfl, h8,
    commitMarks_raised e3⟩

/-- The end of an event does nothing to a state in which nothing is left to do. -/
theorem commit_id {s : State} (h : s.Settled) : (Ev.start s).commit = Ev.start s := by
  have h1 : (Ev.start s).followSummaries = Ev.start s := followSummaries_id h.summaries
  have h2 : (Ev.start s).startLinks = Ev.start s := by
    unfold startLinks
    by_cases hs : s.inService = true
    · rw [if_pos (by simpa using hs), forEach_id _ _ _ fun l _ => startLine_id (h.lines hs l),
        startLamp_id (h.lamp hs), startBayLink_id (h.bayLink hs)]
    · rw [if_neg (by simpa using hs)]
  have h3 : (Ev.start s).dropNotices = Ev.start s := dropNotices_id h.ring
  unfold commit
  rw [settle_id, h1, h2, h3, commitMarks_id h.drain]

end Ev

end Sys2Proof.Machine
end

