-- ==== Sys2Proof/Laws/Configured.lean ====
section
/-! SUPPORT. What a configuration in force gives: the counts fit the tables, and what its records name exists (R1, R2, R20,
R44, R77, R94, R112, R114, R143). -/

namespace Sys2Proof.Machine

theorem within_iff {lo hi v : Nat} : within lo hi v = true ↔ lo ≤ v ∧ v ≤ hi := by simp [within]

/-- A configuration that loads passes the checks that stand. -/
theorem Plant.standing_of_ok {p : Plant} (h : p.ok = true) : p.standing = true := by
  simp only [Plant.ok, Bool.and_eq_true] at h
  exact h.1

/-- The checks that stand, one by one. -/
theorem Plant.standing_iff {p : Plant} : p.standing = true ↔
    p.memoryOk = true ∧ p.zonesOk = true ∧ p.baysOk = true ∧ p.sensorsOk = true ∧ p.groupsOk = true
      ∧ p.stringsOk = true ∧ p.copiesOk = true ∧ p.pointsOk = true ∧ p.storeCap ≤ 65535 := by
  simp only [Plant.standing, Bool.and_eq_true, decide_eq_true_eq, and_assoc]

/-- A record that is read below its count is one of the list. -/
theorem mem_getD {α : Type} {l : List α} {i : Nat} (h : i < l.length) (d : α) : l.getD i d ∈ l := by
  rw [List.getD_eq_getElem?_getD, List.getElem?_eq_getElem h]
  exact List.getElem_mem h

namespace State
variable {s : State}

theorem bayConfig_mem {b : Nat} (h : b < s.bayCount) : s.bayConfig b ∈ s.plant.bays := mem_getD h _
theorem sensorConfig_mem {n : Nat} (h : n < s.sensorCount) : s.sensorConfig n ∈ s.plant.sensors := mem_getD h _
theorem groupConfig_mem {g : Nat} (h : g < s.groupCount) : s.groupConfig g ∈ s.plant.groups := mem_getD h _
theorem stringConfig_mem {k : Nat} (h : k < s.stringCount) : s.stringConfig k ∈ s.plant.strings := mem_getD h _
theorem pointConfig_mem {d : Nat} (h : d < s.pointCount) : s.pointConfig d ∈ s.plant.points := mem_getD h _

end State

namespace State.Configured
variable {s : State}

/-- Either the checks that stand hold, or there is no configuration. -/
theorem standing_or_empty (h : s.Configured) : s.plant.standing = true ∨ s.plant = Plant.empty := by
  have := h.plant
  split at this
  · exact .inl this
  · exact .inr this

theorem zones (h : s.Configured) : s.zoneCount ≤ Config.zones := by
  rcases h.standing_or_empty with h | h
  · have := (Plant.standing_iff.1 h).2.1
    simp only [Plant.zonesOk, Bool.and_eq_true, within_iff] at this
    exact this.1.2
  · simp [State.zoneCount, h, Plant.empty]

theorem bayCount_le (h : s.Configured) : s.bayCount ≤ Config.bays := by
  rcases h.standing_or_empty with h | h
  · have := (Plant.standing_iff.1 h).2.2.1
    simp only [Plant.baysOk, Bool.and_eq_true, within_iff] at this
    exact this.1.1.1.1.1.1.2
  · simp [State.bayCount, h, Plant.empty]

theorem sensors (h : s.Configured) : s.sensorCount ≤ Config.sensors := by
  rcases h.standing_or_empty with h | h
  · have := (Plant.standing_iff.1 h).2.2.2.1
    simp only [Plant.sensorsOk, Bool.and_eq_true, decide_eq_true_eq] at this
    exact this.1.1.1
  · simp [State.sensorCount, h, Plant.empty]

theorem groups (h : s.Configured) : s.groupCount ≤ Config.groups := by
  rcases h.standing_or_empty with h | h
  · have := (Plant.standing_iff.1 h).2.2.2.2.1
    simp only [Plant.groupsOk, Bool.and_eq_true, decide_eq_true_eq] at this
    exact this.1.1
  · simp [State.groupCount, h, Plant.empty]

theorem strings (h : s.Configured) : s.stringCount ≤ Config.strings := by
  rcases h.standing_or_empty with h | h
  · have := (Plant.standing_iff.1 h).2.2.2.2.2.1
    simp only [Plant.stringsOk, Bool.and_eq_true, decide_eq_true_eq] at this
    exact this.1.1.1
  · simp [State.stringCount, h, Plant.empty]

theorem points (h : s.Configured) : s.pointCount ≤ Config.points := by
  rcases h.standing_or_empty with h | h
  · have := (Plant.standing_iff.1 h).2.2.2.2.2.2.2.1
    simp only [Plant.pointsOk, Bool.and_eq_true, decide_eq_true_eq] at this
    exact this.1.1
  · simp [State.pointCount, h, Plant.empty]

theorem windows (h : s.Configured) {w : Window} (hw : w ∈ s.plant.windows) :
    w.base % 256 = 0 ∧ 1 ≤ w.blocks ∧ w.blocks ≤ 64 ∧ w.base + 256 * w.blocks ≤ s.plant.memorySize := by
  rcases h.standing_or_empty with h | h
  · have := (Plant.standing_iff.1 h).1
    simp only [Plant.memoryOk, Bool.and_eq_true, decide_eq_true_eq, List.all_eq_true, within_iff, beq_iff_eq] at this
    have := this.1.1.1.2 w hw
    exact ⟨this.1.1, this.1.2.1, this.1.2.2, this.2⟩
  · simp [h, Plant.empty] at hw

theorem bayZone (h : s.Configured) {b : Nat} (hb : b < s.bayCount) : (s.bayConfig b).zone < s.zoneCount := by
  rcases h.standing_or_empty with h | h
  · have := (Plant.standing_iff.1 h).2.2.1
    simp only [Plant.baysOk, Bool.and_eq_true, decide_eq_true_eq, List.all_eq_true] at this
    exact (this.1.1.1.2 _ (bayConfig_mem hb)).1.1.1
  · simp [State.bayCount, h, Plant.empty] at hb

theorem bayLuminaire (h : s.Configured) {b k p : Nat} (hb : b < s.bayCount)
    (hl : (s.bayConfig b).luminaire = some (k, p)) : k < s.stringCount ∧ p < (s.stringConfig k).count := by
  rcases h.standing_or_empty with h | h
  · have := (Plant.standing_iff.1 h).2.2.1
    simp only [Plant.baysOk, Bool.and_eq_true, List.all_eq_true] at this
    have : s.plant.luminaireOk (s.bayConfig b).luminaire = true := (this.1.1.1.2 _ (bayConfig_mem hb)).2
    rw [hl] at this
    simp only [Plant.luminaireOk] at this
    split at this
    · rename_i c hc
      have hk : k < s.plant.strings.length := (List.getElem?_eq_some_iff.1 hc).1
      refine ⟨hk, ?_⟩
      simp only [State.stringConfig, List.getD_eq_getElem?_getD, hc]
      exact of_decide_eq_true this
    · cases this
  · simp [State.bayCount, h, Plant.empty] at hb

theorem sensorZone (h : s.Configured) {n : Nat} (hn : n < s.sensorCount) : (s.sensorConfig n).zone < s.zoneCount := by
  rcases h.standing_or_empty with h | h
  · have := (Plant.standing_iff.1 h).2.2.2.1
    simp only [Plant.sensorsOk, Bool.and_eq_true, decide_eq_true_eq, List.all_eq_true] at this
    exact (this.1.1.2 _ (sensorConfig_mem hn)).1
  · simp [State.sensorCount, h, Plant.empty] at hn

theorem stringZone (h : s.Configured) {k : Nat} (hk : k < s.stringCount) :
    (s.stringConfig k).zone < s.zoneCount ∧ (s.stringConfig k).count ≤ Config.luminaires
      ∧ (s.stringConfig k).safety ≤ 63 := by
  rcases h.standing_or_empty with h | h
  · have := (Plant.standing_iff.1 h).2.2.2.2.2.1
    simp only [Plant.stringsOk, Bool.and_eq_true, decide_eq_true_eq, List.all_eq_true, within_iff] at this
    have := this.1.1.2 _ (stringConfig_mem hk)
    exact ⟨this.1.1.1.1.1.1.1.2, this.1.1.1.1.1.1.2.2, this.1.1.1.1.2⟩
  · simp [State.stringCount, h, Plant.empty] at hk

theorem groupLines (h : s.Configured) {g : Nat} (hg : g < s.groupCount) :
    (s.groupConfig g).lines.Nodup ∧ (s.groupConfig g).lines ≠ [] ∧ (s.groupConfig g).lines.length ≤ 3
      ∧ (s.groupConfig g).served.Nodup ∧ ∀ z ∈ (s.groupConfig g).served, z < s.zoneCount := by
  rcases h.standing_or_empty with h | h
  · have := (Plant.standing_iff.1 h).2.2.2.2.1
    simp only [Plant.groupsOk, Bool.and_eq_true, decide_eq_true_eq, List.all_eq_true, within_iff, noRepeat] at this
    have := this.1.2 _ (groupConfig_mem hg)
    have one := this.1.1.1.1.1.1.1.1.1.1.2
    refine ⟨this.1.1.1.1.1.1.1.1.1.2, fun e => ?_, one.2, this.1.1.1.1.1.1.1.2, this.1.1.1.1.1.1.2⟩
    have zero : 1 ≤ (s.groupConfig g).lines.length := one.1
    rw [e] at zero
    exact absurd zero (by decide)
  · simp [State.groupCount, h, Plant.empty] at hg

theorem copies (h : s.Configured) {r : CopyRule} (hr : r ∈ s.plant.copies) :
    r.source ≠ r.dest ∧ r.source < s.stringCount ∧ r.dest < s.stringCount ∧ r.first ≤ r.last
      ∧ r.last < (s.stringConfig r.source).count ∧ r.start + (r.last - r.first) < (s.stringConfig r.dest).count := by
  rcases h.standing_or_empty with h | h
  · have := (Plant.standing_iff.1 h).2.2.2.2.2.2.1
    simp only [Plant.copiesOk, Bool.and_eq_true, decide_eq_true_eq, List.all_eq_true, bne_iff_ne] at this
    have := this.2 r hr
    have src : r.source < s.plant.strings.length := this.1.1.1.1.1
    have dst : r.dest < s.plant.strings.length := this.1.1.1.1.2
    have last := this.1.2
    have start := this.2
    rw [List.getElem?_eq_getElem src, Option.any_some, decide_eq_true_eq] at last
    rw [List.getElem?_eq_getElem dst, Option.any_some, decide_eq_true_eq] at start
    refine ⟨this.1.1.1.2, src, dst, this.1.1.2, ?_, ?_⟩
    · simpa only [State.stringConfig, List.getD_eq_getElem?_getD, List.getElem?_eq_getElem src, Option.getD_some] using last
    · simpa only [State.stringConfig, List.getD_eq_getElem?_getD, List.getElem?_eq_getElem dst, Option.getD_some] using start
  · simp [h, Plant.empty] at hr

theorem chains (h : s.Configured) {d : Nat} (hd : d < s.pointCount) :
    chainOk s.zoneCount s.pointCount (s.pointConfig d).chain = true := by
  rcases h.standing_or_empty with h | h
  · have := (Plant.standing_iff.1 h).2.2.2.2.2.2.2.1
    simp only [Plant.pointsOk, Bool.and_eq_true, decide_eq_true_eq, List.all_eq_true] at this
    exact (this.1.2 _ (pointConfig_mem hd)).1.1.1.2
  · simp [State.pointCount, h, Plant.empty] at hd

/-- R45, R68: the onward links form no cycle. -/
theorem acyclic (h : s.Configured) : hasCycle (s.plant.points.map (·.chain)) = false := by
  rcases h.standing_or_empty with h | h
  · have := (Plant.standing_iff.1 h).2.2.2.2.2.2.2.1
    simp only [Plant.pointsOk, Bool.and_eq_true, Bool.not_eq_true'] at this
    exact this.2
  · rw [h]; decide

/-- A hold's bay is configured, and so is a bay that carries one. -/
theorem hold_bay (h : s.Configured) {b : Nat} {x : Hold} (hx : s.hold b = some x) : b < s.bayCount := by
  have hm : x ∈ s.holds := List.mem_of_find?_eq_some hx
  have hb : (x.bay == b) = true := List.find?_some (p := fun y : Hold => y.bay == b) hx
  rw [← eq_of_beq hb]
  exact h.holds x hm

end State.Configured

end Sys2Proof.Machine
end

