-- ==== Sys2Proof/Laws/Marks.lean ====
section
/-! SUPPORT. The marks of an event only grow: a cell that one of its parts has marked stays marked to its end. -/

set_option linter.unusedSimpArgs false

namespace Sys2Proof.Machine.Ev

theorem modifyZone_marks (e : Ev) (z : Nat) (f : Zone → Zone) {x : CellRef} (hx : x ∈ e.marks) : x ∈ (e.modifyZone z f).marks := hx
theorem modifyBay_marks (e : Ev) (b : Nat) (f : Bay → Bay) {x : CellRef} (hx : x ∈ e.marks) : x ∈ (e.modifyBay b f).marks := hx
theorem modifyPoint_marks (e : Ev) (d : Nat) (f : Point → Point) {x : CellRef} (hx : x ∈ e.marks) : x ∈ (e.modifyPoint d f).marks := hx
theorem modifySensor_marks (e : Ev) (n : Nat) (f : Sensor → Sensor) {x : CellRef} (hx : x ∈ e.marks) : x ∈ (e.modifySensor n f).marks := hx
theorem modifyGas_marks (e : Ev) (z : Nat) (f : ZoneGas → ZoneGas) {x : CellRef} (hx : x ∈ e.marks) : x ∈ (e.modifyGas z f).marks := hx
theorem modifyGroup_marks (e : Ev) (g : Nat) (f : Group → Group) {x : CellRef} (hx : x ∈ e.marks) : x ∈ (e.modifyGroup g f).marks := hx
theorem modifyString_marks (e : Ev) (k : Nat) (f : LampString → LampString) {x : CellRef} (hx : x ∈ e.marks) : x ∈ (e.modifyString k f).marks := hx
theorem modifyLine_marks (e : Ev) (l : DriveLine) (f : LineRecord → LineRecord) {x : CellRef} (hx : x ∈ e.marks) : x ∈ (e.modifyLine l f).marks := hx
theorem modify_marks (e : Ev) (f : State → State) {x : CellRef} (hx : x ∈ e.marks) : x ∈ (e.modify f).marks := hx
theorem modifyPlant_marks (e : Ev) (f : Plant → Plant) {x : CellRef} (hx : x ∈ e.marks) : x ∈ (e.modifyPlant f).marks := hx
theorem modifyLoader_marks (e : Ev) (f : Loader → Loader) {x : CellRef} (hx : x ∈ e.marks) : x ∈ (e.modifyLoader f).marks := hx
theorem modifyRunner_marks (e : Ev) (f : Runner → Runner) {x : CellRef} (hx : x ∈ e.marks) : x ∈ (e.modifyRunner f).marks := hx
theorem modifyBudget_marks (e : Ev) (f : Budget → Budget) {x : CellRef} (hx : x ∈ e.marks) : x ∈ (e.modifyBudget f).marks := hx
theorem modifyPath_marks (e : Ev) (f : MemoryPath → MemoryPath) {x : CellRef} (hx : x ∈ e.marks) : x ∈ (e.modifyPath f).marks := hx
theorem modifyNotices_marks (e : Ev) (f : Notices → Notices) {x : CellRef} (hx : x ∈ e.marks) : x ∈ (e.modifyNotices f).marks := hx
theorem modifyLamp_marks (e : Ev) (f : LampLink → LampLink) {x : CellRef} (hx : x ∈ e.marks) : x ∈ (e.modifyLamp f).marks := hx
theorem modifyBayLink_marks (e : Ev) (f : BayLink → BayLink) {x : CellRef} (hx : x ∈ e.marks) : x ∈ (e.modifyBayLink f).marks := hx
theorem mark_marks (e : Ev) (k : SectionKind) (o p : Nat) {x : CellRef} (hx : x ∈ e.marks) : x ∈ (e.mark k o p).marks :=
  List.mem_cons_of_mem _ hx
theorem markGeneral_marks (e : Ev) (p : Nat) {x : CellRef} (hx : x ∈ e.marks) : x ∈ (e.markGeneral p).marks :=
  List.mem_cons_of_mem _ hx
theorem markAll_marks (e : Ev) (k : SectionKind) (o : Nat) (l : List Nat) {x : CellRef} (hx : x ∈ e.marks) : x ∈ (e.markAll k o l).marks :=
  List.mem_append_right _ hx
theorem touchString_marks (e : Ev) (k : Nat) {x : CellRef} (hx : x ∈ e.marks) : x ∈ (e.touchString k).marks := hx

/-- A cell stays marked through every item that keeps it marked. -/
theorem forEach_marks {α : Type} {x : CellRef} (e : Ev) (l : List α) (f : Ev → α → Ev)
    (h : ∀ e a, x ∈ e.marks → x ∈ (f e a).marks) (hx : x ∈ e.marks) : x ∈ (e.forEach l f).marks := by
  induction l generalizing e with
  | nil => exact hx
  | cons a l ih => exact ih _ (h e a hx)

theorem post_marks (e : Ev) (kind : NoticeKind) (severity : Nat) (object : Option Nat) (detail : Word) {x : CellRef} (hx : x ∈ e.marks) : x ∈ (Ev.post e kind severity object detail).marks := by
  simp only [post]
  repeat (first
    | with_reducible exact hx | with_reducible refine markGeneral_marks _ _ ?_
    | with_reducible refine modifyNotices_marks _ _ ?_ | split | dsimp only | exact hx)
theorem setSignPending_marks (e : Ev) (d : Nat) {x : CellRef} (hx : x ∈ e.marks) : x ∈ (Ev.setSignPending e d).marks := hx
theorem setStringPending_marks (e : Ev) (k : Nat) {x : CellRef} (hx : x ∈ e.marks) : x ∈ (Ev.setStringPending e k).marks := hx
theorem setIndicatorPending_marks (e : Ev) (b : Nat) {x : CellRef} (hx : x ∈ e.marks) : x ∈ (Ev.setIndicatorPending e b).marks := hx
theorem dropNotices_marks (e : Ev) {x : CellRef} (hx : x ∈ e.marks) : x ∈ (Ev.dropNotices e).marks := by
  simp only [dropNotices]
  repeat (first
    | with_reducible exact hx | with_reducible refine markGeneral_marks _ _ ?_
    | with_reducible refine modifyNotices_marks _ _ ?_ | split | dsimp only | exact hx)
theorem markPromise_marks (e : Ev) (t : Target) {x : CellRef} (hx : x ∈ e.marks) : x ∈ (Ev.markPromise e t).marks := by
  simp only [markPromise]
  repeat (first
    | with_reducible exact hx | with_reducible refine mark_marks _ _ _ _ ?_
    | with_reducible refine markGeneral_marks _ _ ?_ | split | dsimp only | exact hx)
theorem removeOldest_marks (e : Ev) (p : Promise → Bool) {x : CellRef} (hx : x ∈ e.marks) : x ∈ (Ev.removeOldest e p).marks := hx
theorem removeYoungest_marks (e : Ev) (p : Promise → Bool) {x : CellRef} (hx : x ∈ e.marks) : x ∈ (Ev.removeYoungest e p).marks := hx
theorem consume_marks (e : Ev) (t : Target) (c : BayClass) {x : CellRef} (hx : x ∈ e.marks) : x ∈ (Ev.consume e t c).marks := by
  simp only [consume]
  repeat (first
    | with_reducible exact hx | with_reducible refine markPromise_marks _ _ ?_
    | with_reducible refine removeOldest_marks _ _ ?_ | split | dsimp only | exact hx)
theorem consumeArrival_marks (e : Ev) (z : Nat) (c : BayClass) {x : CellRef} (hx : x ∈ e.marks) : x ∈ (Ev.consumeArrival e z c).marks := by
  simp only [consumeArrival]
  repeat (first
    | with_reducible exact hx | with_reducible refine consume_marks _ _ _ ?_
    | with_reducible refine mark_marks _ _ _ _ ?_ | with_reducible refine modifyZone_marks _ _ _ ?_ | split
    | dsimp only | exact hx)
theorem withdrawOne_marks (e : Ev) (z : Nat) (c : BayClass) {x : CellRef} (hx : x ∈ e.marks) : x ∈ (Ev.withdrawOne e z c).marks := by
  simp only [withdrawOne]
  repeat (first
    | with_reducible exact hx | with_reducible refine markPromise_marks _ _ ?_
    | with_reducible refine removeYoungest_marks _ _ ?_ | with_reducible refine mark_marks _ _ _ _ ?_
    | with_reducible refine modifyZone_marks _ _ _ ?_ | split | dsimp only | exact hx)
theorem withdrawMany_marks {x : CellRef} (z : Nat) (c : BayClass) :
    ∀ (n : Nat) (e : Ev), x ∈ e.marks → x ∈ (Ev.withdrawMany e z c n).marks
  | 0, _, h => h
  | n + 1, e, h => withdrawMany_marks z c n _ (withdrawOne_marks e z c h)
theorem withdraw_marks (e : Ev) (z : Nat) (c : BayClass) {x : CellRef} (hx : x ∈ e.marks) : x ∈ (Ev.withdraw e z c).marks := by
  exact withdrawMany_marks _ _ _ _ hx
theorem setFace_marks (e : Ev) (d : Nat) (st : PointState) (face : Face) {x : CellRef} (hx : x ∈ e.marks) : x ∈ (Ev.setFace e d st face).marks := by
  simp only [setFace]
  repeat (first
    | with_reducible exact hx | with_reducible refine setSignPending_marks _ _ ?_
    | with_reducible refine mark_marks _ _ _ _ ?_ | with_reducible refine modifyPoint_marks _ _ _ ?_ | split
    | dsimp only | exact hx)
theorem toIdle_marks (e : Ev) (d : Nat) {x : CellRef} (hx : x ∈ e.marks) : x ∈ (Ev.toIdle e d).marks := by
  simp only [toIdle]
  repeat (first
    | with_reducible exact hx | with_reducible refine setFace_marks _ _ _ _ ?_
    | with_reducible refine modifyPoint_marks _ _ _ ?_ | split | dsimp only | exact hx)
theorem recallPromises_marks (e : Ev) (z : Nat) {x : CellRef} (hx : x ∈ e.marks) : x ∈ (Ev.recallPromises e z).marks := by
  simp only [recallPromises]
  repeat (first
    | with_reducible exact hx | with_reducible refine post_marks _ _ _ _ _ ?_
    | with_reducible refine markPromise_marks _ _ ?_ | with_reducible refine toIdle_marks _ _ ?_
    | with_reducible refine mark_marks _ _ _ _ ?_ | with_reducible refine modifyZone_marks _ _ _ ?_
    | refine forEach_marks _ _ _ (fun e _ hx => ?_) ?_ | split | dsimp only | exact hx)
theorem refreshIndicator_marks (e : Ev) (b : Nat) {x : CellRef} (hx : x ∈ e.marks) : x ∈ (Ev.refreshIndicator e b).marks := by
  simp only [refreshIndicator]
  repeat (first
    | with_reducible exact hx | with_reducible refine setIndicatorPending_marks _ _ ?_
    | with_reducible refine mark_marks _ _ _ _ ?_ | with_reducible refine modifyBay_marks _ _ _ ?_ | split
    | dsimp only | exact hx)
theorem refreshZoneIndicators_marks (e : Ev) (z : Nat) {x : CellRef} (hx : x ∈ e.marks) : x ∈ (Ev.refreshZoneIndicators e z).marks := by
  simp only [refreshZoneIndicators]
  repeat (first
    | with_reducible exact hx | with_reducible refine setIndicatorPending_marks _ _ ?_
    | with_reducible refine refreshIndicator_marks _ _ ?_ | refine forEach_marks _ _ _ (fun e _ hx => ?_) ?_
    | split | dsimp only | exact hx)
theorem issue_marks (e : Ev) (g stage : Nat) {x : CellRef} (hx : x ∈ e.marks) : x ∈ (Ev.issue e g stage).marks := by
  simp only [issue]
  repeat (first
    | with_reducible exact hx | with_reducible refine mark_marks _ _ _ _ ?_
    | with_reducible refine modifyGroup_marks _ _ _ ?_ | with_reducible refine modifyLine_marks _ _ _ ?_
    | refine forEach_marks _ _ _ (fun e _ hx => ?_) ?_ | split | dsimp only | exact hx)
theorem issueNext_marks (e : Ev) (g : Nat) {x : CellRef} (hx : x ∈ e.marks) : x ∈ (Ev.issueNext e g).marks := by
  simp only [issueNext]
  repeat (first
    | with_reducible exact hx | with_reducible refine issue_marks _ _ _ ?_ | split | dsimp only | exact hx)
theorem recomposeP_marks (e : Ev) (g : Nat) {x : CellRef} (hx : x ∈ e.marks) : x ∈ (Ev.recomposeP e g).marks := by
  simp only [recomposeP]
  repeat (first
    | with_reducible exact hx | with_reducible refine mark_marks _ _ _ _ ?_
    | with_reducible refine modifyGroup_marks _ _ _ ?_ | split | dsimp only | exact hx)
theorem recomposeQ_marks (e : Ev) (g : Nat) {x : CellRef} (hx : x ∈ e.marks) : x ∈ (Ev.recomposeQ e g).marks := by
  simp only [recomposeQ]
  repeat (first
    | with_reducible exact hx | with_reducible refine mark_marks _ _ _ _ ?_
    | with_reducible refine modifyGroup_marks _ _ _ ?_ | split | dsimp only | exact hx)
theorem takeGrant_marks (e : Ev) (g : Nat) {x : CellRef} (hx : x ∈ e.marks) : x ∈ (Ev.takeGrant e g).marks := by
  simp only [takeGrant]
  repeat (first
    | with_reducible exact hx | with_reducible refine issueNext_marks _ _ ?_
    | with_reducible refine mark_marks _ _ _ _ ?_ | with_reducible refine modifyGroup_marks _ _ _ ?_ | split
    | dsimp only | exact hx)
theorem deriveOverride_marks (e : Ev) (k : Nat) {x : CellRef} (hx : x ∈ e.marks) : x ∈ (Ev.deriveOverride e k).marks := by
  simp only [deriveOverride]
  repeat (first
    | with_reducible exact hx | with_reducible refine setStringPending_marks _ _ ?_
    | with_reducible refine mark_marks _ _ _ _ ?_ | with_reducible refine touchString_marks _ _ ?_
    | with_reducible refine modifyString_marks _ _ _ ?_ | split | dsimp only | exact hx)
theorem boost_marks (e : Ev) (k p : Nat) {x : CellRef} (hx : x ∈ e.marks) : x ∈ (Ev.boost e k p).marks := by
  simp only [boost]
  repeat (first
    | with_reducible exact hx | with_reducible refine touchString_marks _ _ ?_
    | with_reducible refine modifyString_marks _ _ _ ?_ | split | dsimp only | exact hx)
theorem handRest_marks (e : Ev) (z : Nat) {x : CellRef} (hx : x ∈ e.marks) : x ∈ (Ev.handRest e z).marks := by
  simp only [handRest]
  repeat (first
    | with_reducible exact hx | with_reducible refine recomposeP_marks _ _ ?_
    | with_reducible refine mark_marks _ _ _ _ ?_ | with_reducible refine touchString_marks _ _ ?_
    | with_reducible refine modifyString_marks _ _ _ ?_ | refine forEach_marks _ _ _ (fun e _ hx => ?_) ?_
    | split | dsimp only | exact hx)
theorem startQuiet_marks (e : Ev) (z : Nat) {x : CellRef} (hx : x ∈ e.marks) : x ∈ (Ev.startQuiet e z).marks := by
  simp only [startQuiet]
  repeat (first
    | with_reducible exact hx | with_reducible refine modifyZone_marks _ _ _ ?_ | split | dsimp only
    | exact hx)
theorem wakeZone_marks (e : Ev) (z : Nat) (wake : Wake) {x : CellRef} (hx : x ∈ e.marks) : x ∈ (Ev.wakeZone e z wake).marks := by
  simp only [wakeZone]
  repeat (first
    | with_reducible exact hx | with_reducible refine handRest_marks _ _ ?_
    | with_reducible refine startQuiet_marks _ _ ?_ | with_reducible refine mark_marks _ _ _ _ ?_
    | with_reducible refine modifyZone_marks _ _ _ ?_ | split | dsimp only | exact hx)
theorem activity_marks (e : Ev) (z : Nat) (wake : Wake) {x : CellRef} (hx : x ∈ e.marks) : x ∈ (Ev.activity e z wake).marks := by
  simp only [activity]
  repeat (first
    | with_reducible exact hx | with_reducible refine startQuiet_marks _ _ ?_
    | with_reducible refine wakeZone_marks _ _ _ ?_ | split | dsimp only | exact hx)
theorem restZone_marks (e : Ev) (z : Nat) (rest : Rest) {x : CellRef} (hx : x ∈ e.marks) : x ∈ (Ev.restZone e z rest).marks := by
  simp only [restZone]
  repeat (first
    | with_reducible exact hx | with_reducible refine handRest_marks _ _ ?_
    | with_reducible refine mark_marks _ _ _ _ ?_ | with_reducible refine modifyZone_marks _ _ _ ?_ | split
    | dsimp only | exact hx)
theorem rederiveAccess_marks (e : Ev) (z : Nat) {x : CellRef} (hx : x ∈ e.marks) : x ∈ (Ev.rederiveAccess e z).marks := by
  simp only [rederiveAccess]
  repeat (first
    | with_reducible exact hx | with_reducible refine post_marks _ _ _ _ _ ?_
    | with_reducible refine recallPromises_marks _ _ ?_
    | with_reducible refine refreshZoneIndicators_marks _ _ ?_ | with_reducible refine mark_marks _ _ _ _ ?_
    | with_reducible refine modifyZone_marks _ _ _ ?_ | split | dsimp only | exact hx)
theorem moveCount_marks (e : Ev) (z : Nat) (before after : Slot) {x : CellRef} (hx : x ∈ e.marks) : x ∈ (Ev.moveCount e z before after).marks := by
  simp only [moveCount]
  repeat (first
    | with_reducible exact hx | with_reducible refine mark_marks _ _ _ _ ?_
    | with_reducible refine modifyZone_marks _ _ _ ?_ | split | dsimp only | exact hx)
theorem bayChange_marks (e : Ev) (b : Nat) (before : BayState) (beforeClass : BayClass) (after : BayState) (afterClass : BayClass) {x : CellRef} (hx : x ∈ e.marks) : x ∈ (Ev.bayChange e b before beforeClass after afterClass).marks := by
  unfold bayChange
  extract_lets z old new e1 e2 e3 e4
  have h1 : x ∈ e1.marks := moveCount_marks _ _ _ _ hx
  clear_value e1
  have h2 : x ∈ e2.marks := by
    simp only [e2]; split
    · exact consumeArrival_marks _ _ _ h1
    · exact h1
  clear_value e2
  have h3 : x ∈ e3.marks := by
    simp only [e3]; split
    · exact forEach_marks _ _ _ (fun e a h => withdraw_marks _ _ _ h) h2
    · exact h2
  clear_value e3
  have h4 : x ∈ e4.marks := rederiveAccess_marks _ _ h3
  clear_value e4
  split
  · apply activity_marks
    split
    · exact post_marks _ _ _ _ _ h4
    · exact h4
  · exact h4
theorem removeHold_marks (e : Ev) (b : Nat) {x : CellRef} (hx : x ∈ e.marks) : x ∈ (Ev.removeHold e b).marks := by
  simp only [removeHold]
  repeat (first
    | with_reducible exact hx | with_reducible refine mark_marks _ _ _ _ ?_
    | with_reducible refine markGeneral_marks _ _ ?_ | split | dsimp only | exact hx)
theorem takeHold_marks (e : Ev) (b : Nat) {x : CellRef} (hx : x ∈ e.marks) : x ∈ (Ev.takeHold e b).marks := by
  simp only [takeHold]
  repeat (first
    | with_reducible exact hx | with_reducible refine post_marks _ _ _ _ _ ?_
    | with_reducible refine removeHold_marks _ _ ?_ | split | dsimp only | exact hx)
theorem handBayState_marks (e : Ev) (b : Nat) (before after : BayState) {x : CellRef} (hx : x ∈ e.marks) : x ∈ (Ev.handBayState e b before after).marks := by
  simp only [handBayState]
  repeat (first
    | with_reducible exact hx | with_reducible refine refreshIndicator_marks _ _ ?_
    | with_reducible refine boost_marks _ _ _ ?_ | with_reducible refine bayChange_marks _ _ _ _ _ _ ?_
    | with_reducible refine mark_marks _ _ _ _ ?_ | with_reducible refine modifyBay_marks _ _ _ ?_ | split
    | dsimp only | exact hx)
theorem rederiveBay_marks (e : Ev) (b : Nat) {x : CellRef} (hx : x ∈ e.marks) : x ∈ (Ev.rederiveBay e b).marks := by
  simp only [rederiveBay]
  repeat (first
    | with_reducible exact hx | with_reducible refine takeHold_marks _ _ ?_
    | with_reducible refine handBayState_marks _ _ _ _ ?_ | split | dsimp only | exact hx)
theorem handFume_marks (e : Ev) (z : Nat) {x : CellRef} (hx : x ∈ e.marks) : x ∈ (Ev.handFume e z).marks := by
  simp only [handFume]
  repeat (first
    | with_reducible exact hx | with_reducible refine recomposeP_marks _ _ ?_
    | with_reducible refine deriveOverride_marks _ _ ?_ | with_reducible refine modifyString_marks _ _ _ ?_
    | refine forEach_marks _ _ _ (fun e _ hx => ?_) ?_ | split | dsimp only | exact hx)
theorem restOnFume_marks (e : Ev) (z old : Nat) {x : CellRef} (hx : x ∈ e.marks) : x ∈ (Ev.restOnFume e z old).marks := by
  simp only [restOnFume]
  repeat (first
    | with_reducible exact hx | with_reducible refine startQuiet_marks _ _ ?_
    | with_reducible refine wakeZone_marks _ _ _ ?_ | with_reducible refine modifyZone_marks _ _ _ ?_ | split
    | dsimp only | exact hx)
theorem setFume_marks (e : Ev) (z stage : Nat) {x : CellRef} (hx : x ∈ e.marks) : x ∈ (Ev.setFume e z stage).marks := by
  simp only [setFume]
  repeat (first
    | with_reducible exact hx | with_reducible refine post_marks _ _ _ _ _ ?_
    | with_reducible refine rederiveAccess_marks _ _ ?_ | with_reducible refine handFume_marks _ _ ?_
    | with_reducible refine restOnFume_marks _ _ _ ?_ | with_reducible refine mark_marks _ _ _ _ ?_
    | with_reducible refine modifyZone_marks _ _ _ ?_ | split | dsimp only | exact hx)
theorem deriveFume_marks (e : Ev) (z : Nat) {x : CellRef} (hx : x ∈ e.marks) : x ∈ (Ev.deriveFume e z).marks := by
  simp only [deriveFume]
  repeat (first
    | with_reducible exact hx | with_reducible refine setFume_marks _ _ _ ?_ | split | dsimp only | exact hx)
theorem grantPass_marks (e : Ev) {x : CellRef} (hx : x ∈ e.marks) : x ∈ (Ev.grantPass e).marks := by
  simp only [grantPass]
  repeat (first
    | with_reducible exact hx | with_reducible refine post_marks _ _ _ _ _ ?_
    | with_reducible refine markGeneral_marks _ _ ?_ | with_reducible refine modifyBudget_marks _ _ ?_
    | split | dsimp only | exact hx)
theorem recordGroup_marks (e : Ev) (g : Nat) {x : CellRef} (hx : x ∈ e.marks) : x ∈ (Ev.recordGroup e g).marks := by
  simp only [recordGroup]
  repeat (first
    | with_reducible exact hx | with_reducible refine modify_marks _ _ ?_
    | with_reducible refine modifyBudget_marks _ _ ?_ | split | dsimp only | exact hx)
theorem composeUnbudgeted_marks (e : Ev) (k : Nat) {x : CellRef} (hx : x ∈ e.marks) : x ∈ (Ev.composeUnbudgeted e k).marks := by
  simp only [composeUnbudgeted]
  repeat (first
    | with_reducible exact hx | with_reducible refine boost_marks _ _ _ ?_
    | with_reducible refine modifyString_marks _ _ _ ?_ | split | dsimp only | exact hx)
theorem recordString_marks (e : Ev) (k : Nat) {x : CellRef} (hx : x ∈ e.marks) : x ∈ (Ev.recordString e k).marks := by
  simp only [recordString]
  repeat (first
    | with_reducible exact hx | with_reducible refine mark_marks _ _ _ _ ?_
    | with_reducible refine modify_marks _ _ ?_ | with_reducible refine modifyBudget_marks _ _ ?_ | split
    | dsimp only | exact hx)
theorem takeFlag_marks (e : Ev) (k : Nat) {x : CellRef} (hx : x ∈ e.marks) : x ∈ (Ev.takeFlag e k).marks := by
  simp only [takeFlag]
  repeat (first
    | with_reducible exact hx | with_reducible refine mark_marks _ _ _ _ ?_
    | with_reducible refine modifyString_marks _ _ _ ?_ | split | dsimp only | exact hx)
theorem startFade_marks (e : Ev) (k : Nat) {x : CellRef} (hx : x ∈ e.marks) : x ∈ (Ev.startFade e k).marks := by
  simp only [startFade]
  repeat (first
    | with_reducible exact hx | with_reducible refine modifyString_marks _ _ _ ?_ | split | dsimp only
    | exact hx)
theorem composeTargets_marks (e : Ev) (k : Nat) {x : CellRef} (hx : x ∈ e.marks) : x ∈ (Ev.composeTargets e k).marks := by
  simp only [composeTargets]
  repeat (first
    | with_reducible exact hx | with_reducible refine setStringPending_marks _ _ ?_
    | with_reducible refine startFade_marks _ _ ?_ | with_reducible refine mark_marks _ _ _ _ ?_
    | with_reducible refine modifyString_marks _ _ _ ?_ | split | dsimp only | exact hx)
theorem settle_marks (e : Ev) {x : CellRef} (hx : x ∈ e.marks) : x ∈ (Ev.settle e).marks := by
  simp only [settle]
  repeat (first
    | with_reducible exact hx | with_reducible refine takeGrant_marks _ _ ?_
    | with_reducible refine grantPass_marks _ ?_ | with_reducible refine recordGroup_marks _ _ ?_
    | with_reducible refine composeUnbudgeted_marks _ _ ?_ | with_reducible refine recordString_marks _ _ ?_
    | with_reducible refine takeFlag_marks _ _ ?_ | with_reducible refine composeTargets_marks _ _ ?_
    | refine forEach_marks _ _ _ (fun e _ hx => ?_) ?_ | split | dsimp only | exact hx)
theorem followSummary_marks (e : Ev) (d : Nat) {x : CellRef} (hx : x ∈ e.marks) : x ∈ (Ev.followSummary e d).marks := by
  simp only [followSummary]
  repeat (first
    | with_reducible exact hx | with_reducible refine setFace_marks _ _ _ _ ?_ | split | dsimp only
    | exact hx)
theorem followSummaries_marks (e : Ev) {x : CellRef} (hx : x ∈ e.marks) : x ∈ (Ev.followSummaries e).marks := by
  simp only [followSummaries]
  repeat (first
    | with_reducible exact hx | with_reducible refine followSummary_marks _ _ ?_
    | refine forEach_marks _ _ _ (fun e _ hx => ?_) ?_ | split | dsimp only | exact hx)
theorem startLine_marks (e : Ev) (l : DriveLine) {x : CellRef} (hx : x ∈ e.marks) : x ∈ (Ev.startLine e l).marks := by
  simp only [startLine]
  repeat (first
    | with_reducible exact hx | with_reducible refine activity_marks _ _ _ ?_
    | with_reducible refine modifyLine_marks _ _ _ ?_ | split | dsimp only | exact hx)
theorem sendString_marks (e : Ev) (k : Nat) {x : CellRef} (hx : x ∈ e.marks) : x ∈ (Ev.sendString e k).marks := by
  simp only [sendString]
  repeat (first
    | with_reducible exact hx | with_reducible refine modifyLamp_marks _ _ ?_ | split | dsimp only | exact hx)
theorem sendSign_marks (e : Ev) (d run : Nat) {x : CellRef} (hx : x ∈ e.marks) : x ∈ (Ev.sendSign e d run).marks := by
  simp only [sendSign]
  repeat (first
    | with_reducible exact hx | with_reducible refine modifyLamp_marks _ _ ?_ | split | dsimp only | exact hx)
theorem startLamp_marks (e : Ev) {x : CellRef} (hx : x ∈ e.marks) : x ∈ (Ev.startLamp e).marks := by
  simp only [startLamp]
  repeat (first
    | with_reducible exact hx | with_reducible refine sendString_marks _ _ ?_
    | with_reducible refine sendSign_marks _ _ _ ?_ | split | dsimp only | exact hx)
theorem startBayLink_marks (e : Ev) {x : CellRef} (hx : x ∈ e.marks) : x ∈ (Ev.startBayLink e).marks := by
  simp only [startBayLink]
  repeat (first
    | with_reducible exact hx | with_reducible refine modifyBayLink_marks _ _ ?_ | split | dsimp only
    | exact hx)
theorem startLinks_marks (e : Ev) {x : CellRef} (hx : x ∈ e.marks) : x ∈ (Ev.startLinks e).marks := by
  simp only [startLinks]
  repeat (first
    | with_reducible exact hx | with_reducible refine startLine_marks _ _ ?_
    | with_reducible refine startLamp_marks _ ?_ | with_reducible refine startBayLink_marks _ ?_
    | refine forEach_marks _ _ _ (fun e _ hx => ?_) ?_ | split | dsimp only | exact hx)

end Sys2Proof.Machine.Ev
end

