-- ==== Sys2Proof/Laws/Finish.lean ====
section
/-! SUPPORT. The arbiter and the whole of an event: what they leave as it is, and when they do nothing more. -/

namespace Sys2Proof.Machine

/-! ## The arbiter -/

/-- With no host access to take, the arbiter touches nothing but the port and the host run. -/
theorem State.arbitrate_eq {s : State} (h : s.path.port = .free → s.path.hostWaiting = none) :
    ∃ port run, s.arbitrate = { s with path := { s.path with port := port, hostRun := run } } := by
  unfold State.arbitrate
  by_cases hp : s.path.port = .free
  · rw [if_pos hp, h hp]
    simp only [State.arbitratePart, hp, if_true]
    cases s.partClaim with
    | none => exact ⟨.free, s.path.hostRun, by rw [← hp]⟩
    | some c => exact ⟨.granted c, 0, rfl⟩
  · rw [if_neg hp]; exact ⟨s.path.port, s.path.hostRun, rfl⟩

/-- The arbiter does nothing where the port is taken, or no claim waits. -/
theorem State.arbitrate_id {s : State} (h : s.PortSettled) : s.arbitrate = s := by
  unfold State.arbitrate
  by_cases hp : s.path.port = .free
  · obtain ⟨h1, h2⟩ := h hp
    rw [if_pos hp, h1]
    simp [State.arbitratePart, h2]
  · rw [if_neg hp]

/-- A free port goes to a host access that waits and comes first; what the access leaves free goes to the part. -/
theorem State.arbitrate_host {s : State} {h : HostAccess} (hp : s.path.port = .free) (hw : s.path.hostWaiting = some h)
    (first : s.HostFirst) : s.arbitrate = (s.grantHost h s.runAfter).arbitratePart := by
  unfold State.arbitrate State.runAfter
  rw [if_pos hp, hw]
  rcases first with none | ⟨drain, run⟩
  · simp [none]
  · cases hc : s.partClaim with
    | none => simp
    | some c => simp [drain, Config.hostRunLimit, Nat.not_le.2 run]

theorem State.arbitratePart_settled (s : State) (h : s.path.hostWaiting = none) : s.arbitratePart.PortSettled := by
  unfold State.arbitratePart
  by_cases hp : s.path.port = .free
  · rw [if_pos hp]
    cases hc : s.partClaim with
    | none => intro _; exact ⟨h, hc⟩
    | some c => intro h'; simp [State.grantPart] at h'
  · rw [if_neg hp]; intro h'; exact absurd h' hp

/-! ## Events that leave nothing to do -/

/-- An event whose effect leaves a rested state, with nothing marked, handed or touched, is that effect alone. -/
theorem finish_of_rested {f : Ev → Ev} {s t : State} (hf : f (Ev.start s) = Ev.start t) (ht : t.Rested) :
    finish f s = t := by
  unfold finish
  rw [hf, Ev.commit_id ht.toSettled, Ev.start_s, State.arbitrate_id ht.port]

/-- An event whose effect leaves a settled state ends with the arbiter. -/
theorem finish_of_settled {f : Ev → Ev} {s t : State} (hf : f (Ev.start s) = Ev.start t) (ht : t.Settled) :
    finish f s = t.arbitrate := by
  unfold finish
  rw [hf, Ev.commit_id ht, Ev.start_s]

/-- Whether a state is settled does not depend on the port and the accesses that wait for it. -/
theorem State.Settled.withPort {s : State} (h : s.Settled) (port : Port) (waiting : Option HostAccess) (run : Nat) :
    State.Settled { s with path := { s.path with port := port, hostWaiting := waiting, hostRun := run } } :=
  ⟨h.summaries.congr rfl rfl rfl rfl, h.lines.congr rfl rfl, h.lamp.congr rfl rfl rfl rfl, h.bayLink.congr rfl rfl rfl,
    h.ring, h.drain⟩

theorem occur_of_rested {f : Ev → Ev} {s t : State} (hf : f (Ev.start s) = Ev.start t) (ht : t.Rested) :
    occur f s = .next t := by unfold occur; rw [finish_of_rested hf ht]

theorem occurIf_of_rested {c : Bool} {f : Ev → Ev} {s t : State} (hc : c = true) (hf : f (Ev.start s) = Ev.start t)
    (ht : t.Rested) : occurIf c f s = .next t := by
  rw [occurIf, if_pos hc]; exact occur_of_rested hf ht

theorem occurIf_false {c : Bool} (f : Ev → Ev) (s : State) (hc : c = false) : occurIf c f s = .next s := by
  rw [occurIf, if_neg (by simp [hc])]

theorem occurIf_true {c : Bool} (f : Ev → Ev) (s : State) (hc : c = true) : occurIf c f s = .next (finish f s) := by
  rw [occurIf, if_pos hc]; rfl

theorem next_inj {s t : State} (h : (Host.Outcome.next s : Host.Outcome State Fault Refusal) = .next t) : s = t :=
  Host.Outcome.next.inj h

theorem occur_eq (f : Ev → Ev) (s : State) : occur f s = .next (finish f s) := rfl

/-- An event under a condition leaves the state as it is, or is handled whole. -/
theorem occurIf_cases (c : Bool) (f : Ev → Ev) (s : State) :
    occurIf c f s = .next s ∨ (c = true ∧ occurIf c f s = .next (finish f s)) := by
  cases c
  · exact Or.inl rfl
  · exact Or.inr ⟨rfl, rfl⟩

/-! ## What the end of any event leaves as it is -/

namespace Ev

@[simp] theorem commit_base (e : Ev) : e.commit.s.base = e.s.base := by
  rw [commit, commitMarks_base]; simp
@[simp] theorem commit_zones (e : Ev) : e.commit.s.zones = e.s.zones := by simp [commit]
@[simp] theorem commit_bays (e : Ev) : e.commit.s.bays = e.s.bays := by simp [commit]
@[simp] theorem commit_holds (e : Ev) : e.commit.s.holds = e.s.holds := by simp [commit]
@[simp] theorem commit_pool (e : Ev) : e.commit.s.pool = e.s.pool := by simp [commit]

end Ev

end Sys2Proof.Machine
end

