-- ==== Sys2Proof/Laws/Port.lean ====
section
/-! SUPPORT. The memory port's side of an event: what marks leave of the Memory Path, what a host access that is taken
leaves of it, and what the arbiter leaves. -/

namespace Sys2Proof.Machine

/-! ## Marks -/

/-- Marks touch the dirty marks, the queue and the drain flag alone. -/
def MemoryPath.steady (p : MemoryPath) : MemoryPath := { p with dirty := [], queue := [], drain := false }

@[simp] theorem MemoryPath.steady_raiseDrain (p : MemoryPath) : p.raiseDrain.steady = p.steady := by
  unfold MemoryPath.raiseDrain; split <;> rfl

@[simp] theorem MemoryPath.steady_enqueue (p : MemoryPath) (l : List Nat) : (p.enqueue l).steady = p.steady := by
  unfold MemoryPath.enqueue
  rw [steady_raiseDrain]
  induction l generalizing p with
  | nil => rfl
  | cons a l ih => rw [List.foldl_cons, ih]; split <;> rfl

@[simp] theorem MemoryPath.steady_markCells (p : MemoryPath) (l : List Nat) : (p.markCells l).steady = p.steady := by
  unfold MemoryPath.markCells; rw [steady_enqueue]; rfl

/-- The sweep, discards and marks leave the port, the host's accesses and the host run. -/
def MemoryPath.ends (p : MemoryPath) := (p.port, p.hostRun, p.hostWaiting, p.hostAnswer)

theorem MemoryPath.ends_of_steady {p q : MemoryPath} (h : p.steady = q.steady) : p.ends = q.ends := by
  have h1 := congrArg MemoryPath.port h; have h2 := congrArg MemoryPath.hostRun h
  have h3 := congrArg MemoryPath.hostWaiting h; have h4 := congrArg MemoryPath.hostAnswer h
  simp only [MemoryPath.steady] at h1 h2 h3 h4
  simp only [MemoryPath.ends, h1, h2, h3, h4]

@[simp] theorem MemoryPath.ends_markCells (p : MemoryPath) (l : List Nat) : (p.markCells l).ends = p.ends :=
  ends_of_steady (steady_markCells p l)

@[simp] theorem MemoryPath.ends_enqueue (p : MemoryPath) (l : List Nat) : (p.enqueue l).ends = p.ends :=
  ends_of_steady (steady_enqueue p l)

@[simp] theorem MemoryPath.ends_clean (p : MemoryPath) (a : Nat) : (p.clean a).ends = p.ends := rfl

@[simp] theorem MemoryPath.ends_scan (p : MemoryPath) (image : List Nat) : (p.scan image).ends = p.ends := by
  unfold MemoryPath.scan
  dsimp only
  split
  · split
    · exact ends_enqueue p _
    · exact ends_enqueue p _
  · exact ends_enqueue p _

@[simp] theorem MemoryPath.ends_dropHead (p : MemoryPath) (image : List Nat) : (p.dropHead image).ends = p.ends := by
  unfold MemoryPath.dropHead
  dsimp only
  split
  · rw [ends_scan]; rfl
  · rfl

theorem MemoryPath.ends_discardHeads (image : List Nat) : ∀ (fuel : Nat) (p : MemoryPath),
    (MemoryPath.discardHeads image fuel p).ends = p.ends
  | 0, _ => rfl
  | fuel + 1, p => by
    unfold MemoryPath.discardHeads
    split
    · rfl
    · split
      · rfl
      · rw [ends_discardHeads image fuel, ends_dropHead]

@[simp] theorem MemoryPath.ends_settleHead (p : MemoryPath) (image : List Nat) : (p.settleHead image).ends = p.ends :=
  ends_discardHeads image _ p

theorem MemoryPath.ends_port {p q : MemoryPath} (h : p.ends = q.ends) : p.port = q.port := congrArg (·.1) h
theorem MemoryPath.ends_hostRun {p q : MemoryPath} (h : p.ends = q.ends) : p.hostRun = q.hostRun := congrArg (·.2.1) h
theorem MemoryPath.ends_hostWaiting {p q : MemoryPath} (h : p.ends = q.ends) : p.hostWaiting = q.hostWaiting :=
  congrArg (·.2.2.1) h
theorem MemoryPath.ends_hostAnswer {p q : MemoryPath} (h : p.ends = q.ends) : p.hostAnswer = q.hostAnswer :=
  congrArg (·.2.2.2) h

namespace Ev

theorem bus_path {e e' : Ev} (h : e.s.bus = e'.s.bus) : e.s.path = e'.s.path := congrArg (·.2.2) h
theorem bus_mem {e e' : Ev} (h : e.s.bus = e'.s.bus) : e.s.mem = e'.s.mem := congrArg (·.2.1) h
theorem bus_pending {e e' : Ev} (h : e.s.bus = e'.s.bus) : e.s.pending = e'.s.pending := congrArg (·.1) h

@[simp] theorem commit_path_steady (e : Ev) : e.commit.s.path.steady = e.s.path.steady := by
  simp [commit]

@[simp] theorem commit_ends (e : Ev) : e.commit.s.path.ends = e.s.path.ends :=
  MemoryPath.ends_of_steady (commit_path_steady e)

theorem commit_port (e : Ev) : e.commit.s.path.port = e.s.path.port := MemoryPath.ends_port (commit_ends e)
theorem commit_hostWaiting (e : Ev) : e.commit.s.path.hostWaiting = e.s.path.hostWaiting :=
  MemoryPath.ends_hostWaiting (commit_ends e)

/-! ## Presenting an access -/

@[simp] theorem present_port (e : Ev) (a : Nat) (d : Option Word) (en : ByteEnables) :
    (e.present a d en).s.path.port = .busy ⟨a, d, en⟩ := by cases d <;> rfl

@[simp] theorem present_hostWaiting (e : Ev) (a : Nat) (d : Option Word) (en : ByteEnables) :
    (e.present a d en).s.path.hostWaiting = e.s.path.hostWaiting := by cases d <;> rfl

/-- A host access that passes to memory is presented on the port. -/
@[simp] theorem passHost_hostWaiting (e : Ev) (h : HostAccess) :
    (e.passHost h).s.path.hostWaiting = e.s.path.hostWaiting := by
  unfold passHost
  split
  · exact present_hostWaiting _ _ _ _
  · exact present_hostWaiting _ _ _ _

/-- A host access that is taken by its cell's class leaves no other waiting. -/
theorem takeByClass_hostWaiting (e : Ev) (h : HostAccess) :
    (e.takeByClass h).s.path.hostWaiting = e.s.path.hostWaiting := by
  unfold takeByClass
  dsimp only
  split
  · split
    · rfl
    · exact passHost_hostWaiting _ _
  · split
    · exact passHost_hostWaiting _ _
    · split
      · unfold demandWrite
        split
        · rw [bus_path (e' := e) (by simp)]
        · rw [bus_path (captureDemand_bus _ _ _ _ _)]
          simp only [modifyPath_path]
          rw [MemoryPath.ends_hostWaiting (MemoryPath.ends_settleHead _ _),
            MemoryPath.ends_hostWaiting (MemoryPath.ends_clean _ _), present_hostWaiting]
      · rw [bus_path (guardWrite_bus _ _)]
      · rw [bus_path (guardWrite_bus _ _)]
      · rw [bus_path (triggerStart_bus _ _), passHost_hostWaiting]
      · rw [bus_path (triggerAbort_bus _), passHost_hostWaiting]
      · exact passHost_hostWaiting _ _

/-- A host access that is taken leaves no other waiting. -/
theorem takeHost_hostWaiting (e : Ev) (h : HostAccess) :
    (e.takeHost h).s.path.hostWaiting = e.s.path.hostWaiting := by
  unfold takeHost
  split
  · exact passHost_hostWaiting _ _
  · exact takeByClass_hostWaiting _ _

/-- A plain access passes to memory, whatever cell its address has. -/
@[simp] theorem takeHost_plain (e : Ev) (a : Address) (d : Option Word) (en : ByteEnables) :
    e.takeHost ⟨a, d, en, true⟩ = e.passHost ⟨a, d, en, true⟩ := rfl

/-- Any other access is taken by its cell's class. -/
@[simp] theorem takeHost_byClass (e : Ev) (a : Address) (d : Option Word) (en : ByteEnables) :
    e.takeHost ⟨a, d, en, false⟩ = e.takeByClass ⟨a, d, en, false⟩ := rfl

end Ev

/-! ## The arbiter -/

/-- Whatever stood before, after the arbiter the port is free only while no claim waits. -/
theorem State.arbitrate_settled (s : State) : s.arbitrate.PortSettled := by
  unfold State.arbitrate
  by_cases hp : s.path.port = .free
  · rw [if_pos hp]
    have host : ∀ h run, (s.grantHost h run).path.hostWaiting = none := by
      intro h run
      unfold State.grantHost
      rw [Ev.commit_hostWaiting, Ev.takeHost_hostWaiting]; rfl
    cases hw : s.path.hostWaiting with
    | none => exact State.arbitratePart_settled s hw
    | some h =>
      cases hc : s.partClaim with
      | none => exact State.arbitratePart_settled _ (host h 0)
      | some c =>
        dsimp only
        split
        · intro h'; simp [State.grantPart] at h'
        · exact State.arbitratePart_settled _ (host h _)
  · rw [if_neg hp]; intro h; exact absurd h hp

/-- What the end of an event leaves done, the grant of the port keeps. -/
theorem State.grantPart_settled {s : State} (c : PartClaim) (h : s.Settled) : (s.grantPart c).Settled :=
  h.withPort (.granted c) s.path.hostWaiting 0

end Sys2Proof.Machine
end

