-- ==== Sys2Proof/Laws/End.lean ====
section
/-! SUPPORT. What a whole event leaves, read from what its own part did: an event that takes no host access ends as the
commitment of its part, with the port granted anew at most. -/

namespace Sys2Proof.Machine

/-! ## Dirty marks -/

theorem mem_insertSorted (x a : Nat) : ∀ l : List Nat, a ∈ insertSorted x l ↔ a = x ∨ a ∈ l
  | [] => by simp [insertSorted]
  | y :: rest => by
    unfold insertSorted
    split
    · simp
    · split
      · rename_i h; subst h; simp
      · simp only [List.mem_cons, mem_insertSorted x a rest]
        constructor
        · rintro (h | h | h) <;> simp [h]
        · rintro (h | h | h) <;> simp [h]

theorem mem_foldr_insertSorted (a : Nat) (m : List Nat) : ∀ l : List Nat, a ∈ l.foldr insertSorted m ↔ a ∈ l ∨ a ∈ m
  | [] => by simp
  | y :: rest => by simp [mem_insertSorted, mem_foldr_insertSorted a m rest, or_assoc]

theorem mem_sortedSet (a : Nat) (l : List Nat) : a ∈ sortedSet l ↔ a ∈ l := by
  simp [sortedSet, mem_foldr_insertSorted]

@[simp] theorem MemoryPath.raiseDrain_dirty (p : MemoryPath) : p.raiseDrain.dirty = p.dirty := by
  unfold raiseDrain; split <;> rfl

@[simp] theorem MemoryPath.enqueue_dirty (p : MemoryPath) (l : List Nat) : (p.enqueue l).dirty = p.dirty := by
  unfold enqueue
  rw [raiseDrain_dirty]
  induction l generalizing p with
  | nil => rfl
  | cons a l ih => rw [List.foldl_cons, ih]; split <;> rfl

@[simp] theorem MemoryPath.mem_markCells (p : MemoryPath) (l : List Nat) (a : Nat) :
    a ∈ (p.markCells l).dirty ↔ a ∈ l ∨ a ∈ p.dirty := by
  simp [markCells, mem_foldr_insertSorted]

theorem MemoryPath.steady_sweep {p q : MemoryPath} (h : p.steady = q.steady) : p.sweep = q.sweep := by
  have := congrArg MemoryPath.sweep h; exact this

/-! ## Notices -/

theorem Ev.post_notices (e : Ev) (k : NoticeKind) (v : Nat) (o : Option Nat) (d : Word) :
    (e.post k v o d).s.notices = e.s.notices.stage ⟨k, v, o, d, e.s.partTime⟩ := by
  unfold Ev.post Notices.stage; split <;> rfl

theorem Ev.dropNotices_notices (e : Ev) : e.dropNotices.s.notices =
    if e.s.notices.ringFull && !e.s.notices.staging.isEmpty then
      { e.s.notices with staging := [], lost := e.s.notices.lost + BitVec.ofNat 16 e.s.notices.staging.length }
    else e.s.notices := by
  unfold Ev.dropNotices; split <;> rfl

/-! ## Events that hand in no claim and touch no string -/

/-- No claim is handed in, no string is touched and no pass is due. -/
structure Ev.Quiet (e : Ev) : Prop where
  strings : e.strings = []
  groups : e.groups = []
  pass : e.pass = false

theorem Ev.Quiet.settle {e : Ev} (h : e.Quiet) : e.settle = e := by
  obtain ⟨s, marks, strings, groups, pass⟩ := e
  obtain ⟨h1, h2, h3⟩ := h
  simp only at h1 h2 h3
  subst h1; subst h2; subst h3
  rfl

namespace Ev

theorem mark_mem (e : Ev) (k : SectionKind) (o p : Nat) : (⟨k, o, p⟩ : CellRef) ∈ (e.mark k o p).marks :=
  List.mem_cons_self ..

theorem addressOf_congr {s t : State} (h : t.plant = s.plant) (c : CellRef) : t.addressOf c = s.addressOf c := by
  unfold State.addressOf; rw [h]

@[simp] theorem commit_plant (e : Ev) : e.commit.s.plant = e.s.plant := State.base_plant (commit_base e)
@[simp] theorem commit_loader (e : Ev) : e.commit.s.loader = e.s.loader := State.base_loader (commit_base e)

theorem commit_dirty (e : Ev) {c : CellRef} {a : Nat} (h : c ∈ e.marks) (ha : e.s.addressOf c = some a) :
    a ∈ e.commit.s.path.dirty := by
  unfold commit
  have h' : c ∈ ((e.settle.followSummaries).startLinks).dropNotices.marks :=
    dropNotices_marks _ (startLinks_marks _ (followSummaries_marks _ (settle_marks _ h)))
  have hb : ((e.settle.followSummaries).startLinks).dropNotices.s.plant = e.s.plant := by
    apply State.base_plant; simp
  generalize ((e.settle.followSummaries).startLinks).dropNotices = e1 at *
  rw [commitMarks_s, MemoryPath.mem_markCells, mem_sortedSet]
  exact Or.inl (List.mem_filterMap.mpr ⟨c, h', by rw [addressOf_congr hb]; exact ha⟩)

theorem commit_dirty_keeps (e : Ev) {a : Nat} (h : a ∈ e.s.path.dirty) : a ∈ e.commit.s.path.dirty := by
  unfold commit
  have hb : ((e.settle.followSummaries).startLinks).dropNotices.s.path = e.s.path := by simp
  rw [commitMarks_s, MemoryPath.mem_markCells, hb]
  exact Or.inr h

theorem commitMarks_notices (e : Ev) : e.commitMarks.s.notices = e.s.notices := rfl

theorem commit_notices (e : Ev) : e.commit.s.notices = e.settle.dropNotices.s.notices := by
  unfold commit
  rw [commitMarks_notices, dropNotices_notices, dropNotices_notices]
  simp

theorem commit_groups (e : Ev) : e.commit.s.groups = e.settle.s.groups := by
  unfold commit; rw [commitMarks_s]; simp
theorem commit_strings (e : Ev) : e.commit.s.strings = e.settle.s.strings := by
  unfold commit; rw [commitMarks_s]; simp
theorem commit_budget (e : Ev) : e.commit.s.budget = e.settle.s.budget := by
  unfold commit; rw [commitMarks_s]; simp

/-- The summary follows for one DP: only the face of an IDLE one changes. -/
theorem followSummary_same (e : Ev) (d d' : Nat) : State.SamePoint e.s (e.followSummary d).s d' := by
  unfold followSummary
  split
  · rename_i h
    simp only [Bool.and_eq_true, decide_eq_true_eq] at h
    by_cases hd : d = d'
    · subst hd
      by_cases hlt : d < 24
      · refine ⟨?_, fun hn => absurd h.1 hn⟩
        simp [setFace, setSignPending, State.point, Table.getD_modify_same _ hlt]
        simpa [State.point] using h.1.symm
      · simp [State.SamePoint, setFace, setSignPending, State.point, Table.getD_beyond _ (Nat.le_of_not_lt hlt)]
    · simp [State.SamePoint, setFace, setSignPending, State.point, Table.getD_modify_other _ hd]
  · exact ⟨rfl, fun _ => rfl⟩

theorem SamePoint.trans {s t u : State} {d : Nat} (h1 : State.SamePoint s t d) (h2 : State.SamePoint t u d) :
    State.SamePoint s u d := by
  have hst : (t.point d).state = (s.point d).state := by rw [h1.1]
  refine ⟨?_, fun hn => ?_⟩
  · rw [h2.1, h1.1]
  · rw [h2.2 (by rw [hst]; exact hn), h1.2 hn]

theorem followSummaries_same (e : Ev) (d : Nat) : State.SamePoint e.s e.followSummaries.s d := by
  unfold followSummaries
  generalize List.range e.s.pointCount = l
  induction l generalizing e with
  | nil => exact ⟨rfl, fun _ => rfl⟩
  | cons a l ih => rw [forEach_cons]; exact SamePoint.trans (followSummary_same e a d) (ih _)

theorem commit_points (e : Ev) (d : Nat) : State.SamePoint e.s e.commit.s d := by
  have h := followSummaries_same e.settle d
  have h1 : ∀ d, e.settle.s.point d = e.s.point d := fun d => by simp [State.point]
  have h2 : e.commit.s.point d = e.settle.followSummaries.s.point d := by
    unfold commit; rw [commitMarks_s]; simp [State.point]
  unfold State.SamePoint at *
  rw [h1] at h; rw [h2]; exact h

/-- Lines that are served keep what they are doing. -/
theorem startLines_id {e : Ev} (h : ∀ l, (e.s.line l).activity = .idle → (e.s.line l).queue = []) :
    e.forEach allLines startLine = e := forEach_id _ _ e fun l _ => startLine_id (h l)

theorem commit_lines {e : Ev} (h : e.settle.s.LinesServed) : e.commit.s.lines = e.settle.s.lines := by
  have h1 : e.commit.s.lines = e.settle.followSummaries.startLinks.s.lines := by
    unfold commit; rw [commitMarks_s]; simp
  have hl : e.settle.followSummaries.s.lines = e.settle.s.lines := by simp
  have hld : e.settle.followSummaries.s.loader = e.settle.s.loader := State.base_loader (by simp)
  rw [h1, ← hl]
  unfold startLinks
  by_cases hs : e.settle.followSummaries.s.inService = true
  · rw [if_pos hs, startLines_id]
    · simp
    · exact (h.congr hld hl) hs
  · rw [if_neg hs]

theorem startLinks_id {e : Ev} (hl : e.s.LinesServed) (hk : e.s.LampServed) (hb : e.s.BayLinkServed) :
    e.startLinks = e := by
  unfold startLinks
  by_cases hs : e.s.inService = true
  · rw [if_pos hs, startLines_id (hl hs), startLamp_id (hk hs), startBayLink_id (hb hs)]
  · rw [if_neg hs]

/-- A sign whose pending mark is set keeps its turn, or has it. -/
theorem startLamp_sign (e : Ev) (d : Nat) (h : e.s.signPending d = true) : e.startLamp.s.SignQueued d := by
  unfold startLamp
  by_cases hf : e.s.lampLink.frame.isSome = true
  · rw [if_pos hf]; exact Or.inl h
  · rw [if_neg hf]
    have send : ∀ d' run, (e.sendSign d' run).s.SignQueued d := by
      intro d' run
      by_cases hd : d' = d
      · subst hd; exact Or.inr rfl
      · left
        show (e.s.lampLink.signPending.set d' false).getD d false = true
        rw [Table.getD_set_other _ hd]; exact h
    dsimp only
    split
    · exact Or.inl h
    · exact send _ _
    · exact Or.inl h
    · split
      · exact send _ _
      · exact Or.inl h

/-- A string whose pending mark is set keeps its turn, or has it. -/
theorem startLamp_string (e : Ev) (k : Nat) (h : e.s.stringPending k = true) : e.startLamp.s.StringQueued k := by
  unfold startLamp
  by_cases hf : e.s.lampLink.frame.isSome = true
  · rw [if_pos hf]; exact Or.inl h
  · rw [if_neg hf]
    have send : ∀ k', (e.sendString k').s.StringQueued k := by
      intro k'
      by_cases hk : k' = k
      · subst hk; exact Or.inr rfl
      · left
        show (e.s.lampLink.stringPending.set k' false).getD k false = true
        rw [Table.getD_set_other _ hk]; exact h
    dsimp only
    split
    · exact Or.inl h
    · exact Or.inl h
    · exact send _
    · split
      · exact Or.inl h
      · exact send _

/-- The frames that idle links begin change the links alone. -/
def Links (s t : State) : Prop := t = { s with lines := t.lines, lampLink := t.lampLink, bayLink := t.bayLink }

theorem Links.trans {s t u : State} (h1 : Links s t) (h2 : Links t u) : Links s u := by
  unfold Links at *; rw [h2, h1]

theorem startLine_links (e : Ev) (l : DriveLine) : Links e.s (e.startLine l).s := by
  unfold startLine; split <;> rfl

theorem startLamp_links (e : Ev) : Links e.s e.startLamp.s := by
  unfold startLamp
  dsimp only
  split
  · rfl
  · split
    · rfl
    · rfl
    · rfl
    · split <;> rfl

theorem startBayLink_links (e : Ev) : Links e.s e.startBayLink.s := by
  unfold startBayLink
  split
  · rfl
  · split <;> rfl

theorem startLinks_links (e : Ev) : Links e.s e.startLinks.s := by
  unfold startLinks
  split
  · exact (((startLine_links e .a).trans (startLine_links _ .b)).trans (startLine_links _ .c)).trans
      ((startLamp_links _).trans (startBayLink_links _))
  · rfl

/-- A quiet event that leaves no summary to follow ends with its links, its notices and its marks. -/
theorem commit_quiet {e : Ev} (h : e.Quiet) (hf : e.s.SummariesFollow) :
    e.commit = e.startLinks.dropNotices.commitMarks := by
  unfold commit
  rw [h.settle, followSummaries_id hf]

/-- A quiet event that leaves no summary and no link to serve ends with its notices and its marks. -/
theorem commit_still {e : Ev} (h : e.Quiet) (hf : e.s.SummariesFollow) (hl : e.s.LinesServed) (hk : e.s.LampServed)
    (hb : e.s.BayLinkServed) : e.commit = e.dropNotices.commitMarks := by
  unfold commit
  rw [h.settle, followSummaries_id hf, startLinks_id hl hk hb]

end Ev

/-! ## The whole of an event -/

/-- `t` is what the event whose part is `e` leaves: the commitment of `e`, and the port granted anew at most. -/
def EndOf (e : Ev) (t : State) : Prop :=
  ∃ port run, t = { e.commit.s with path := { e.commit.s.path with port := port, hostRun := run } }

theorem finish_end_of {f : Ev → Ev} {s : State}
    (hp : (f (Ev.start s)).s.path.port = .free → (f (Ev.start s)).s.path.hostWaiting = none) :
    EndOf (f (Ev.start s)) (finish f s) := by
  unfold finish
  apply State.arbitrate_eq
  rw [Ev.commit_port, Ev.commit_hostWaiting]
  exact hp

theorem finish_end {f : Ev → Ev} {s : State} (hp : s.PortSettled) (hb : (f (Ev.start s)).s.path.ends = s.path.ends) :
    EndOf (f (Ev.start s)) (finish f s) := by
  apply finish_end_of
  rw [MemoryPath.ends_port hb, MemoryPath.ends_hostWaiting hb]
  intro h; exact (hp h).1

/-- The usual case: the event leaves memory, the port and the queue of events to its end. -/
theorem finish_end_bus {f : Ev → Ev} {s : State} (hp : s.PortSettled) (hb : (f (Ev.start s)).s.bus = s.bus) :
    EndOf (f (Ev.start s)) (finish f s) :=
  finish_end hp (by rw [show (f (Ev.start s)).s.path = s.path from congrArg (·.2.2) hb])

namespace EndOf

variable {e : Ev} {t : State}

theorem base (h : EndOf e t) : t.base = e.s.base := by
  obtain ⟨p, r, rfl⟩ := h; rw [← Ev.commit_base e]; rfl
theorem plant (h : EndOf e t) : t.plant = e.s.plant := State.base_plant h.base
theorem loader (h : EndOf e t) : t.loader = e.s.loader := State.base_loader h.base
theorem zones (h : EndOf e t) : t.zones = e.s.zones := by obtain ⟨p, r, rfl⟩ := h; simp
theorem bays (h : EndOf e t) : t.bays = e.s.bays := by obtain ⟨p, r, rfl⟩ := h; simp
theorem holds (h : EndOf e t) : t.holds = e.s.holds := by obtain ⟨p, r, rfl⟩ := h; simp
theorem pool (h : EndOf e t) : t.pool = e.s.pool := by obtain ⟨p, r, rfl⟩ := h; simp
theorem groups (h : EndOf e t) : t.groups = e.settle.s.groups := by
  obtain ⟨p, r, rfl⟩ := h; exact Ev.commit_groups e
theorem strings (h : EndOf e t) : t.strings = e.settle.s.strings := by
  obtain ⟨p, r, rfl⟩ := h; exact Ev.commit_strings e
theorem budget (h : EndOf e t) : t.budget = e.settle.s.budget := by
  obtain ⟨p, r, rfl⟩ := h; exact Ev.commit_budget e
theorem notices (h : EndOf e t) : t.notices = e.settle.dropNotices.s.notices := by
  obtain ⟨p, r, rfl⟩ := h; exact Ev.commit_notices e
theorem points (h : EndOf e t) (d : Nat) : State.SamePoint e.s t d := by
  obtain ⟨p, r, rfl⟩ := h; exact Ev.commit_points e d
theorem lines (h : EndOf e t) (hl : e.settle.s.LinesServed) : t.lines = e.settle.s.lines := by
  obtain ⟨p, r, rfl⟩ := h; exact Ev.commit_lines hl
theorem lampLink (h : EndOf e t) : t.lampLink = e.commit.s.lampLink := by obtain ⟨p, r, rfl⟩ := h; rfl
theorem bayLink (h : EndOf e t) : t.bayLink = e.commit.s.bayLink := by obtain ⟨p, r, rfl⟩ := h; rfl

/-- Of a quiet event that leaves no summary to follow: only its links, notices and the Memory Path change further. -/
theorem shape (h : EndOf e t) (hq : e.Quiet) (hf : e.s.SummariesFollow) :
    t = { e.s with
      lines := t.lines, lampLink := t.lampLink, bayLink := t.bayLink, path := t.path, notices := t.notices } := by
  obtain ⟨p, r, rfl⟩ := h
  rw [Ev.commit_quiet hq hf]
  have h1 : e.startLinks.s = { e.s with
      lines := e.startLinks.s.lines, lampLink := e.startLinks.s.lampLink, bayLink := e.startLinks.s.bayLink } :=
    Ev.startLinks_links e
  have h2 : e.startLinks.dropNotices.s = { e.startLinks.s with
      path := e.startLinks.s.path, notices := e.startLinks.dropNotices.s.notices } := by
    unfold Ev.dropNotices; split <;> rfl
  rw [Ev.commitMarks_s]
  rw [h2, h1]

theorem lampLink_of (h : EndOf e t) (hq : e.Quiet) (hf : e.s.SummariesFollow) (hk : e.s.LampServed) :
    t.lampLink = e.s.lampLink := by
  rw [h.lampLink, Ev.commit_quiet hq hf]
  simp only [Ev.commitMarks_s, Ev.dropNotices_lampLink]
  unfold Ev.startLinks
  split
  · rename_i hs
    have hb : (e.forEach allLines Ev.startLine).s.base = e.s.base := by simp
    rw [Ev.startBayLink_lampLink, Ev.startLamp_id]
    · simp
    · exact (hk.congr (State.base_loader hb) (State.base_plant hb) (by simp) (by simp))
        (by rw [← hs]; unfold State.inService; rw [State.base_loader hb])
  · rfl

theorem bayLink_of (h : EndOf e t) (hq : e.Quiet) (hf : e.s.SummariesFollow) (hk : e.s.BayLinkServed) :
    t.bayLink = e.s.bayLink := by
  rw [h.bayLink, Ev.commit_quiet hq hf]
  simp only [Ev.commitMarks_s, Ev.dropNotices_bayLink]
  unfold Ev.startLinks
  split
  · rename_i hs
    have hb : ((e.forEach allLines Ev.startLine).startLamp).s.base = e.s.base := by simp
    rw [Ev.startBayLink_id]
    · simp
    · exact (hk.congr (State.base_loader hb) (State.base_plant hb) (by simp))
        (by rw [← hs]; unfold State.inService; rw [State.base_loader hb])
  · rfl

theorem lines_of (h : EndOf e t) (hq : e.Quiet) (hl : e.s.LinesServed) : t.lines = e.s.lines := by
  have := h.lines (by rw [hq.settle]; exact hl)
  rw [this, hq.settle]

/-- Of a quiet event that leaves no summary and no link to serve: only notices and the Memory Path change further. -/
theorem still (h : EndOf e t) (hq : e.Quiet) (hf : e.s.SummariesFollow) (hl : e.s.LinesServed) (hk : e.s.LampServed)
    (hb : e.s.BayLinkServed) : t = { e.s with path := t.path, notices := t.notices } := by
  obtain ⟨p, r, rfl⟩ := h
  rw [Ev.commit_still hq hf hl hk hb]
  unfold Ev.dropNotices
  split <;> rfl

/-- A cell that the event marked is dirty after it. -/
theorem marked (h : EndOf e t) {k : SectionKind} {o p : Nat} (hm : (⟨k, o, p⟩ : CellRef) ∈ e.marks) :
    t.MarkedDirty k o p := by
  intro a ha
  rw [Ev.addressOf_congr h.plant] at ha
  obtain ⟨p, r, rfl⟩ := h
  exact Ev.commit_dirty e hm ha

theorem samePath (h : EndOf e t) {s : State} (hp : e.s.path = s.path) : s.SamePath t := by
  obtain ⟨p, r, rfl⟩ := h
  have h1 := Ev.commit_path_steady e
  have h2 := Ev.commit_ends e
  rw [hp] at h1 h2
  have h3 := MemoryPath.steady_sweep h1
  have h4 := MemoryPath.ends_hostWaiting h2
  have h5 := MemoryPath.ends_hostAnswer h2
  exact ⟨h3, h4, h5, fun a ha => Ev.commit_dirty_keeps e (by rw [hp]; exact ha)⟩

/-- Of an event that posts the records `l` and nothing else of the notices. -/
theorem posting (h : EndOf e t) {s : State} {l : List Notice} (hn : e.settle.s.notices = l.foldl Notices.stage s.notices) :
    t.notices = s.notices.posting l := by
  rw [h.notices, Ev.dropNotices_notices, hn]; rfl

theorem settled (h : EndOf e t) : t.Settled := by
  obtain ⟨p, r, rfl⟩ := h
  exact (Ev.commit_done e).withPort p e.commit.s.path.hostWaiting r

end EndOf

end Sys2Proof.Machine
end

