-- ==== Sys2Proof/Laws/Exec.lean ====
section
/-! SUPPORT. What an event can answer: the state as it is, or one event handled whole. -/

namespace Sys2Proof.Machine

/-- `o` leaves `s` as it is, or is one event of `s` handled whole. -/
def EventOf (s : State) (o : Host.Outcome State Fault Refusal) : Prop := o = .next s ∨ ∃ f, o = .next (finish f s)

theorem EventOf.same (s : State) : EventOf s (.next s) := Or.inl rfl

theorem EventOf.occur (f : Ev → Ev) (s : State) : EventOf s (occur f s) := Or.inr ⟨f, occur_eq f s⟩

theorem EventOf.occurIf (c : Bool) (f : Ev → Ev) (s : State) : EventOf s (occurIf c f s) := by
  rcases occurIf_cases c f s with h | ⟨_, h⟩
  · exact Or.inl h
  · exact Or.inr ⟨f, h⟩

/-- Every event of the part leaves the state as it is, or is handled whole. -/
theorem exec_event (c : Instr) (s : State) : EventOf s (exec c s) := by
  cases c
  case resetAssert => exact EventOf.occur _ s
  case holdLapse b =>
    simp only [exec, execHoldLapse]; split
    · exact EventOf.occurIf _ _ s
    · exact EventOf.same s
  case debounceExpiry b =>
    simp only [exec, execDebounceExpiry]; split
    · exact EventOf.occurIf _ _ s
    · exact EventOf.same s
  case passage d i =>
    simp only [exec, execPassage]; split
    · exact EventOf.occurIf _ _ s
    · exact EventOf.same s
  case promiseLapse p =>
    simp only [exec, execPromiseLapse]; split
    · exact EventOf.occurIf _ _ s
    · exact EventOf.same s
  case boostExpiry k p =>
    simp only [exec, execBoostExpiry]; split
    · exact EventOf.occurIf _ _ s
    · exact EventOf.same s
  case pollSent =>
    simp only [exec, execPollSent]; split
    · exact EventOf.occurIf _ _ s
    · exact EventOf.same s
  case pollReply =>
    simp only [exec, execPollReply]; split
    · exact EventOf.occurIf _ _ s
    · exact EventOf.same s
  case pollMiss =>
    simp only [exec, execPollMiss]; split
    · exact EventOf.occurIf _ _ s
    · exact EventOf.same s
  case driveFrameSent l =>
    simp only [exec, execDriveFrameSent]; split
    · exact EventOf.occurIf _ _ s
    · exact EventOf.same s
  case driveAnswer =>
    simp only [exec, execDriveAnswer]; split
    · exact EventOf.occurIf _ _ s
    · exact EventOf.same s
  case driveWindowExpiry =>
    simp only [exec, execDriveWindowExpiry]; split
    · exact EventOf.occurIf _ _ s
    · exact EventOf.same s
  case lampReply =>
    simp only [exec, execLampReply]; split
    · exact EventOf.occurIf _ _ s
    · exact EventOf.same s
  case lampWindowExpiry =>
    simp only [exec, execLampWindowExpiry]; split
    · exact EventOf.occurIf _ _ s
    · exact EventOf.same s
  case injection =>
    simp only [exec, execInjection]; split
    · exact EventOf.occurIf _ _ s
    · exact EventOf.same s
  case noticeWordWrite =>
    simp only [exec, execNoticeWordWrite]; split
    · exact EventOf.occurIf _ _ s
    · exact EventOf.same s
  case listWordFetch =>
    simp only [exec, execListWordFetch]; split
    · exact EventOf.occurIf _ _ s
    · exact EventOf.same s
  case statusWrite =>
    simp only [exec, execStatusWrite]; split
    · exact EventOf.occurIf _ _ s
    · exact EventOf.same s
  case listClosingWrite =>
    simp only [exec, execListClosingWrite]; split
    · exact EventOf.occurIf _ _ s
    · exact EventOf.same s
  all_goals exact EventOf.occurIf _ _ s

end Sys2Proof.Machine
end

