-- ==== Sys2Proof/Laws/Memory.lean ====
section
/-! SUPPORT. Memory: every write keeps the canonical form, and what each byte reads as after a write. -/

namespace Sys2Proof.Machine.Memory

theorem wfAbove_weaken : ∀ (m : Memory) (j : Nat), wfAbove (some j) m = true → wfAbove none m = true
  | [], _, _ => rfl
  | (a, v) :: rest, j, h => by simp only [wfAbove, Bool.and_eq_true] at h ⊢; exact ⟨h.1.2, h.2⟩

theorem wfAbove_lower : ∀ (m : Memory) (i j : Nat), i ≤ j → wfAbove (some j) m = true → wfAbove (some i) m = true
  | [], _, _, _, _ => rfl
  | (a, v) :: rest, i, j, hij, h => by
    simp only [wfAbove, Bool.and_eq_true, decide_eq_true_eq] at h ⊢
    exact ⟨⟨by omega, h.1.2⟩, h.2⟩

/-- Below every listed address a byte reads as unlisted. -/
theorem readByte_below : ∀ (m : Memory) (j k : Nat), wfAbove (some j) m = true → k ≤ j → m.readByte k = unlisted
  | [], _, _, _, _ => rfl
  | (a, v) :: rest, j, k, h, hk => by
    simp only [wfAbove, Bool.and_eq_true, decide_eq_true_eq] at h
    have : ¬ a = k := by omega
    have : k < a := by omega
    simp [readByte, *]

theorem wfAbove_writeByte : ∀ (m : Memory) (j k : Nat) (v : Byte), j < k → wfAbove (some j) m = true →
    wfAbove (some j) (m.writeByte k v) = true
  | [], j, k, v, hk, _ => by
    simp only [writeByte]; split <;> simp [wfAbove, *]
  | (a, w) :: rest, j, k, v, hk, h => by
    have h' := h
    simp only [wfAbove, Bool.and_eq_true, decide_eq_true_eq, bne_iff_ne] at h'
    obtain ⟨⟨hja, hw⟩, hr⟩ := h'
    simp only [writeByte]
    split
    · rename_i hak
      subst hak
      split
      · exact wfAbove_lower _ _ _ (by omega) hr
      · rename_i hv; simp [wfAbove, hja, hv, hr]
    · split
      · rename_i hlt
        split
        · exact h
        · rename_i hv; simp [wfAbove, hk, hv, hlt, hw, hr]
      · simp only [wfAbove, Bool.and_eq_true, decide_eq_true_eq, bne_iff_ne]
        exact ⟨⟨hja, hw⟩, wfAbove_writeByte rest a k v (by omega) hr⟩

/-- A byte write keeps the canonical form. -/
theorem wf_writeByte (m : Memory) (k : Nat) (v : Byte) (h : m.wf = true) : (m.writeByte k v).wf = true := by
  cases m with
  | nil => simp only [wf, writeByte]; split <;> simp [wfAbove, *]
  | cons x rest =>
    obtain ⟨a, w⟩ := x
    have h' := h
    simp only [wf, wfAbove, Bool.and_eq_true, bne_iff_ne] at h'
    obtain ⟨hw, hr⟩ := h'
    simp only [wf, writeByte]
    split
    · rename_i hak
      subst hak
      split
      · exact wfAbove_weaken _ _ hr
      · rename_i hv; simp [wfAbove, hv, hr]
    · split
      · rename_i hlt
        split
        · exact h
        · rename_i hv; simp [wfAbove, hv, hlt, hw, hr]
      · simp only [wfAbove, Bool.and_eq_true, bne_iff_ne]
        exact ⟨hw, wfAbove_writeByte rest a k v (by omega) hr⟩

theorem readByte_writeByte_above : ∀ (m : Memory) (j k i : Nat) (v : Byte), wfAbove (some j) m = true →
    (m.writeByte k v).readByte i = if i = k then v else m.readByte i
  | [], _, k, i, v, _ => by
    simp only [writeByte]
    split
    · split <;> simp [readByte, *]
    · by_cases h1 : k = i
      · subst h1; simp [readByte]
      · by_cases h2 : i < k <;> simp [readByte, h1, h2, Ne.symm h1]
  | (a, w) :: rest, j, k, i, v, h => by
    simp only [wfAbove, Bool.and_eq_true, decide_eq_true_eq, bne_iff_ne] at h
    obtain ⟨⟨hja, hw⟩, hr⟩ := h
    simp only [writeByte]
    split
    · rename_i hak
      subst hak
      split
      · rename_i hv
        by_cases hi : i = a
        · subst hi; rw [readByte_below rest i i hr (Nat.le_refl _)]; simp [hv]
        · simp only [hi, if_false, readByte]
          rw [if_neg (Ne.symm hi)]
          split
          · exact readByte_below rest a i hr (by omega)
          · rfl
      · by_cases hi : a = i
        · simp [readByte, hi]
        · simp [readByte, hi, Ne.symm hi]
    · rename_i hak
      split
      · rename_i hlt
        split
        · rename_i hv
          by_cases hi : i = k
          · have : ¬ a = i := by omega
            have : i < a := by omega
            simp [readByte, *]
          · simp [hi]
        · by_cases hi : k = i
          · simp [readByte, hi]
          · by_cases hik : i < k
            · have : ¬ a = i := by omega
              have : i < a := by omega
              simp [readByte, *, Ne.symm hi]
            · simp [readByte, hi, hik, Ne.symm hi]
      · simp only [readByte]
        by_cases hai : a = i
        · have : ¬ i = k := by omega
          simp [*]
        · by_cases hia : i < a
          · have : ¬ i = k := by omega
            simp [*]
          · simp only [hai, hia, if_false]
            exact readByte_writeByte_above rest a k i v hr

/-- What a byte reads as after a byte write. -/
theorem readByte_writeByte (m : Memory) (k i : Nat) (v : Byte) (h : m.wf = true) :
    (m.writeByte k v).readByte i = if i = k then v else m.readByte i := by
  cases m with
  | nil => exact readByte_writeByte_above [] 0 k i v rfl
  | cons x rest =>
    obtain ⟨a, w⟩ := x
    simp only [wf, wfAbove, Bool.and_eq_true, bne_iff_ne] at h
    obtain ⟨hw, hr⟩ := h
    cases a with
    | succ b =>
      exact readByte_writeByte_above _ b k i v (by
        simp only [wfAbove, Bool.and_eq_true, decide_eq_true_eq, bne_iff_ne]; exact ⟨⟨by omega, hw⟩, hr⟩)
    | zero =>
      simp only [writeByte]
      split
      · rename_i hk
        subst hk
        split
        · rename_i hv
          by_cases hi : i = 0
          · subst hi; rw [readByte_below rest 0 0 hr (Nat.le_refl _)]; simp [hv]
          · have : ¬ 0 = i := by omega
            simp [readByte, *]
        · by_cases hi : 0 = i
          · simp [readByte, ← hi]
          · simp [readByte, hi, Ne.symm hi]
      · rename_i hk
        split
        · omega
        · simp only [readByte]
          by_cases hi : 0 = i
          · have : ¬ i = k := by omega
            simp [*]
          · simp only [hi, if_false, Nat.not_lt_zero]
            exact readByte_writeByte_above rest 0 k i v hr

/-- A lane write keeps the canonical form. -/
theorem wf_writeLane (m : Memory) (a : Nat) (w : Word) (e : ByteEnables) (i : Nat) (h : m.wf = true) :
    (m.writeLane a w e i).wf = true := by
  unfold writeLane; split
  · exact wf_writeByte _ _ _ h
  · exact h

/-- A word write keeps the canonical form. -/
theorem wf_writeWord (m : Memory) (a : Nat) (w : Word) (e : ByteEnables) (h : m.wf = true) :
    (m.writeWord a w e).wf = true :=
  wf_writeLane _ _ _ _ _ (wf_writeLane _ _ _ _ _ (wf_writeLane _ _ _ _ _ (wf_writeLane _ _ _ _ _ h)))

/-- What a byte reads as after a lane write. -/
theorem readByte_writeLane (m : Memory) (a : Nat) (w : Word) (e : ByteEnables) (i k : Nat) (h : m.wf = true) :
    (m.writeLane a w e i).readByte k = if k = 4 * a + i ∧ e.getLsbD i = true then byteOf w i else m.readByte k := by
  unfold writeLane
  by_cases he : e.getLsbD i = true
  · simp only [he, if_true, and_true]; exact readByte_writeByte m _ k _ h
  · simp [he]

end Sys2Proof.Machine.Memory
end

