-- ==== Sys2Proof/Laws/Notions.lean ====
section
/-! SUPPORT. The small facts of the notions that statements use: ages, clean heads of the queue, turns, promises kept,
grants summed, lapses due, and the fields of the part under RESET. -/

namespace Sys2Proof.Machine

/-! ## Ages and clean heads -/

theorem sensorAge_le (s : State) (n : Nat) : s.sensorAge n ≤ Config.ageLimit := by
  unfold State.sensorAge
  split
  · split
    · exact Nat.le_refl _
    · exact Nat.min_le_left _ _
  · exact Nat.le_refl _

theorem sensorAge_of_stopped {s : State} {n : Nat} (h : (s.sensor n).ageStopped = true) :
    s.sensorAge n = Config.ageLimit := by
  unfold State.sensorAge
  split
  · rw [if_pos h]
  · rfl

theorem settleHead_of_dirty {p : MemoryPath} {image : List Nat} {a : Nat} {rest : List Nat} (q : p.queue = a :: rest)
    (d : p.dirty.contains a = true) : p.settleHead image = p := by
  unfold MemoryPath.settleHead
  simp only [q, List.length_cons, MemoryPath.discardHeads, if_pos d]

/-- With 32 entries or fewer no sweep is made: the clean entries at the head are gone, and nothing else changes. -/
theorem discardHeads_of_short (image : List Nat) : ∀ (fuel : Nat) (p : MemoryPath), p.queue.length ≤ Config.lowMark →
    p.queue.length ≤ fuel →
    MemoryPath.discardHeads image fuel p = { p with queue := p.queue.dropWhile fun b => !p.dirty.contains b }
  | 0, p, _, hf => by
    have e : p.queue = [] := List.length_eq_zero_iff.1 (by omega)
    rw [MemoryPath.discardHeads, e, List.dropWhile_nil, ← e]
  | fuel + 1, p, hl, hf => by
    unfold MemoryPath.discardHeads
    split
    · next e => rw [e, List.dropWhile_nil, ← e]
    · next a rest e =>
      rw [e] at hl hf
      by_cases d : p.dirty.contains a = true
      · rw [if_pos d, e, List.dropWhile_cons_of_neg (by simpa using d), ← e]
      · have hd : p.dropHead image = { p with queue := rest } := by
          unfold MemoryPath.dropHead
          rw [e]
          simp only [List.tail_cons, List.length_cons] at *
          have n : ¬ rest.length = Config.lowMark := by omega
          simp [n]
        rw [if_neg d, hd, discardHeads_of_short image fuel _ (by simp at hl ⊢; omega) (by simp at hf ⊢; omega), e,
          List.dropWhile_cons_of_pos (by simpa using d)]

theorem settleHead_of_short {p : MemoryPath} (image : List Nat) (h : p.queue.length ≤ Config.lowMark) :
    p.settleHead image = { p with queue := p.queue.dropWhile fun b => !p.dirty.contains b } :=
  discardHeads_of_short image _ p h (Nat.le_refl _)

/-! ## Turns -/

/-- The device whose turn it is is unique. -/
theorem NextInTurn.unique {last count : Nat} {eligible : Nat → Bool} {i j : Nat} (hi : NextInTurn last count eligible i)
    (hj : NextInTurn last count eligible j) : i = j := by
  obtain ⟨ci, ei, ti⟩ := hi
  obtain ⟨cj, ej, tj⟩ := hj
  rcases Nat.lt_trichotomy i j with l | l | l
  · rcases ti with ⟨ai, -⟩ | ⟨far, -⟩ <;> rcases tj with ⟨aj, bj⟩ | ⟨-, none⟩
    · have := bj i l ei
      omega
    · simp [none i l] at ei
    · have := far j cj ej
      omega
    · simp [none i l] at ei
  · exact l
  · rcases ti with ⟨ai, bi⟩ | ⟨far, none⟩ <;> rcases tj with ⟨aj, bj⟩ | ⟨other, -⟩
    · have := bi j l ej
      omega
    · have := other i ci ei
      omega
    · simp [none j l] at ej
    · simp [none j l] at ej

/-! ## Promises -/

theorem keepOldest_sublist (z : Nat) (room : PerClass Nat) (pool : List Promise) :
    (keepOldest z room pool).Sublist pool := by
  induction pool generalizing room with
  | nil => exact .slnil
  | cons p rest ih =>
    unfold keepOldest
    split
    · split
      · exact (ih _).cons_cons p
      · exact (ih _).cons p
    · exact (ih _).cons_cons p

/-- Promises to other targets stay. -/
theorem mem_keepOldest_of_ne {z : Nat} {room : PerClass Nat} {pool : List Promise} {p : Promise} (h : p ∈ pool)
    (n : p.target ≠ .zone z) : p ∈ keepOldest z room pool := by
  induction pool generalizing room with
  | nil => exact h
  | cons q rest ih =>
    unfold keepOldest
    rcases List.mem_cons.1 h with rfl | h
    · simp [n]
    · split
      · split
        · exact List.mem_cons_of_mem _ (ih h)
        · exact ih h
      · exact List.mem_cons_of_mem _ (ih h)

namespace State
variable (s : State)

theorem consumed_sublist (u : Target) (c : BayClass) : (s.consumed u c).Sublist s.pool := by
  unfold consumed
  split <;> exact List.eraseP_sublist

theorem consumed_length_le (u : Target) (c : BayClass) : (s.consumed u c).length ≤ s.pool.length :=
  (s.consumed_sublist u c).length_le

theorem mem_consumed_of_ne {u : Target} {c : BayClass} {p : Promise} (h : p ∈ s.pool) (n : p.target ≠ u) :
    p ∈ s.consumed u c := by
  unfold consumed
  split <;> exact (List.mem_eraseP_of_neg (by simp [n])).2 h

/-! ## Grants -/

theorem stringsGranted_succ (k : Nat) : s.stringsGranted (k + 1)
    = s.stringsGranted k + if (s.stringClaim k).grant then (s.stringClaim k).disc else 0 := by
  simp [stringsGranted, List.range_succ]

theorem groupsGranted_succ (g : Nat) : s.groupsGranted (g + 1)
    = s.groupsGranted g + if (s.groupClaim g).p < (s.groupClaim g).g then
        s.power g (s.groupClaim g).g - s.power g (s.groupClaim g).p else 0 := by
  simp [groupsGranted, List.range_succ]

/-! ## Lapses (R33, R64, R119) -/

variable {s}

theorem lapseDue_of_hold {h : Hold} (m : h ∈ s.holds) (r : s.reached h.expiry = true) : s.lapseDue = true := by
  simp only [lapseDue, Bool.or_eq_true]
  exact .inl (.inl (List.any_eq_true.2 ⟨h, m, r⟩))

theorem lapseDue_of_promise {p : Promise} (m : p ∈ s.pool) (r : s.reached p.expiry = true) : s.lapseDue = true := by
  simp only [lapseDue, Bool.or_eq_true]
  exact .inl (.inr (List.any_eq_true.2 ⟨p, m, r⟩))

/-- No lapse is due exactly while no hold, no promise and no boost has reached its expiry. -/
theorem lapseDue_eq_false : s.lapseDue = false ↔
    (∀ h ∈ s.holds, s.reached h.expiry = false) ∧ (∀ p ∈ s.pool, s.reached p.expiry = false)
      ∧ ∀ k ∈ s.strings.rows, ∀ l ∈ k.luminaires.rows, ∀ expiry, l.boost = some expiry → s.reached expiry = false := by
  simp only [lapseDue, Bool.or_eq_false_iff, List.any_eq_false, Bool.not_eq_true, and_assoc]
  refine and_congr Iff.rfl (and_congr Iff.rfl ⟨fun h k hk l hl expiry e => ?_, fun h k hk l hl => ?_⟩)
  · have := h k hk l hl
    simpa [e] using this
  · cases e : l.boost with
    | none => rfl
    | some expiry => simpa using h k hk l hl expiry e

/-! ## The part under RESET (R169) -/

@[simp] theorem assertReset_mem : s.assertReset.mem = s.mem := rfl
@[simp] theorem assertReset_pending : s.assertReset.pending = s.pending := rfl
@[simp] theorem assertReset_plant : s.assertReset.plant = Plant.empty := rfl
@[simp] theorem assertReset_loader : s.assertReset.loader = Loader.reset := rfl
@[simp] theorem assertReset_hostAnswer : s.assertReset.path.hostAnswer = s.path.hostAnswer := rfl
@[simp] theorem assertReset_hostWaiting :
    s.assertReset.path.hostWaiting = s.path.hostWaiting.map fun h => { h with plain := true } := rfl

end State

end Sys2Proof.Machine
end

