-- ==== Sys2Proof/WellFormed.lean ====
section
/-! DEFINITION. Which terms of `Instr` are events the spec gives: the operand ranges its rules state. The meanings are
total, so an ill-formed event has a meaning too (it names no object, so nothing happens: assumption 2). -/

namespace Sys2Proof

namespace Instr

/-- R142: an access carries one to four byte enables. -/
def enablesOk (e : ByteEnables) : Bool := e != 0

/-- The operand ranges of each event. -/
def wf : Instr → Bool
  | .resetAssert => true
  | .resetRelease => true
  | .storeReadDone data => !data.isEmpty                                  -- R170: a read ends with the data
  | .storeReadTimeout => true
  | .broadcastTimerExpiry => true
  | .partTimeAdvance => true
  | .holdLapse bay => bay < Config.bays                                    -- R20
  | .promiseLapse place => place < Config.promisePool                      -- R47
  | .boostExpiry string position => string < Config.strings && position < Config.luminaires   -- R112
  | .bayReport address _ _ _ => address ≤ 4095                             -- section 2.2
  | .debounceExpiry bay => bay < Config.bays
  | .silenceExpiry bay => bay < Config.bays
  | .quietTimerExpiry zone => zone < Config.zones                          -- R1
  | .indicatorFrameDone => true
  | .passage point _ => point < Config.points                              -- R44
  | .showTimerExpiry point => point < Config.points
  | .signRetryTimerExpiry point => point < Config.points
  | .pollSent => true
  | .pollReply address _ _ _ => address ≤ 255                              -- R77
  | .pollMiss => true
  | .fallHoldExpiry zone _ => zone < Config.zones
  | .driveFrameSent _ => true
  | .driveAnswer _ address _ => address ≤ 247                              -- R94
  | .driveWindowExpiry _ => true
  | .stepDownTimerExpiry group => group < Config.groups                    -- R94
  | .retryTimerExpiry group => group < Config.groups
  | .fanGrantTaken group => group < Config.groups
  | .stringGrantTaken string => string < Config.strings
  | .fadeTimerExpiry string => string < Config.strings
  | .lampFrameSent => true
  | .lampReply address failed => address ≤ 4095 && failed.length ≤ 8       -- R126
  | .lampWindowExpiry => true
  | .stringRetryTimerExpiry string => string < Config.strings
  | .hostReadCell _ enables => enablesOk enables
  | .guardedWrite _ _ enables => enablesOk enables
  | .modeWrite _ _ enables => enablesOk enables
  | .extraAirWrite _ _ enables => enablesOk enables
  | .floorWrite _ _ enables => enablesOk enables
  | .levelsWrite _ _ enables => enablesOk enables
  | .allFullWrite _ _ enables => enablesOk enables
  | .noticeReadIndexWrite _ _ enables => enablesOk enables
  | .attentionThresholdWrite _ _ enables => enablesOk enables
  | .commandStart _ _ enables => enablesOk enables
  | .commandAbort _ _ enables => enablesOk enables
  | .hostWritePass _ _ enables => enablesOk enables
  | .memoryAccessDone => true
  | .injection => true
  | .noticeWordWrite => true
  | .listWordFetch => true
  | .statusWrite => true
  | .listClosingWrite => true
  | .broadcastFrameDone _ => true

end Instr

end Sys2Proof
end

