-- ==== Sys2Proof/Laws/PerInstr.lean ====
section
/-! SUPPORT. What well-formedness says of an event's operands, one lemma for each event. -/

namespace Sys2Proof.Laws.EventOperands

/-- The records that an event names by index, each with the size of its table. -/
def objects : Instr → List (Nat × Nat)
  | .holdLapse bay => [(bay, Config.bays)]
  | .promiseLapse place => [(place, Config.promisePool)]
  | .boostExpiry string position => [(string, Config.strings), (position, Config.luminaires)]
  | .debounceExpiry bay => [(bay, Config.bays)]
  | .silenceExpiry bay => [(bay, Config.bays)]
  | .quietTimerExpiry zone => [(zone, Config.zones)]
  | .passage point _ => [(point, Config.points)]
  | .showTimerExpiry point => [(point, Config.points)]
  | .signRetryTimerExpiry point => [(point, Config.points)]
  | .fallHoldExpiry zone _ => [(zone, Config.zones)]
  | .stepDownTimerExpiry group => [(group, Config.groups)]
  | .retryTimerExpiry group => [(group, Config.groups)]
  | .fanGrantTaken group => [(group, Config.groups)]
  | .stringGrantTaken string => [(string, Config.strings)]
  | .fadeTimerExpiry string => [(string, Config.strings)]
  | .stringRetryTimerExpiry string => [(string, Config.strings)]
  | _ => []

/-- A well-formed event names only records that the tables have, and a well-formed host access enables a byte. -/
def Statement (i : Instr) : Prop :=
  i.wf = true → (∀ x ∈ objects i, x.1 < x.2) ∧ ∀ h, Machine.State.accessOf i = some h → h.enables ≠ 0

/-- An event that names no record and is no host access. -/
theorem of_none {i : Instr} (o : objects i = []) (a : Machine.State.accessOf i = none) : Statement i := by
  intro _
  rw [o, a]
  exact ⟨fun x hx => absurd hx List.not_mem_nil, fun h e => nomatch e⟩

/-- An event that names one record and is no host access. -/
theorem of_one {i : Instr} {x n : Nat} (o : objects i = [(x, n)]) (a : Machine.State.accessOf i = none)
    (w : i.wf = decide (x < n)) : Statement i := by
  intro h
  rw [w] at h
  rw [o, a]
  exact ⟨fun y hy => by rw [List.mem_singleton.mp hy]; exact of_decide_eq_true h, fun h e => nomatch e⟩

/-- A host access. -/
theorem of_access {i : Instr} {a : Machine.HostAccess} (o : objects i = []) (h : Machine.State.accessOf i = some a)
    (w : i.wf = Instr.enablesOk a.enables) : Statement i := by
  intro hw
  rw [w] at hw
  rw [o, h]
  refine ⟨fun x hx => absurd hx List.not_mem_nil, fun b e => ?_⟩
  cases e
  exact bne_iff_ne.mp hw

theorem resetAssert : Statement .resetAssert := of_none rfl rfl

theorem resetRelease : Statement .resetRelease := of_none rfl rfl

theorem storeReadDone (data : List Byte) : Statement (.storeReadDone data) := of_none rfl rfl

theorem storeReadTimeout : Statement .storeReadTimeout := of_none rfl rfl

theorem broadcastTimerExpiry : Statement .broadcastTimerExpiry := of_none rfl rfl

theorem partTimeAdvance : Statement .partTimeAdvance := of_none rfl rfl

theorem holdLapse (bay : Nat) : Statement (.holdLapse bay) := of_one rfl rfl rfl

theorem promiseLapse (place : Nat) : Statement (.promiseLapse place) := of_one rfl rfl rfl

theorem boostExpiry (string position : Nat) : Statement (.boostExpiry string position) := by
  intro h
  have both := Bool.and_eq_true_iff.mp (show (decide (string < Config.strings) && decide (position < Config.luminaires)) = true from h)
  refine ⟨fun x hx => ?_, fun h e => nomatch e⟩
  rcases List.mem_cons.mp hx with rfl | hx
  · exact of_decide_eq_true both.1
  · rw [List.mem_singleton.mp hx]
    exact of_decide_eq_true both.2

theorem bayReport (address : Nat) (presence : Presence) (fault : Bool) (kind : ReportKind) : Statement (.bayReport address presence fault kind) :=
  of_none rfl rfl

theorem debounceExpiry (bay : Nat) : Statement (.debounceExpiry bay) := of_one rfl rfl rfl

theorem silenceExpiry (bay : Nat) : Statement (.silenceExpiry bay) := of_one rfl rfl rfl

theorem quietTimerExpiry (zone : Nat) : Statement (.quietTimerExpiry zone) := of_one rfl rfl rfl

theorem indicatorFrameDone : Statement .indicatorFrameDone := of_none rfl rfl

theorem passage (point : Nat) (input : DetectorInput) : Statement (.passage point input) := of_one rfl rfl rfl

theorem showTimerExpiry (point : Nat) : Statement (.showTimerExpiry point) := of_one rfl rfl rfl

theorem signRetryTimerExpiry (point : Nat) : Statement (.signRetryTimerExpiry point) := of_one rfl rfl rfl

theorem pollSent : Statement .pollSent := of_none rfl rfl

theorem pollReply (address : Nat) (co no2 : BitVec 16) (fault : Bool) : Statement (.pollReply address co no2 fault) :=
  of_none rfl rfl

theorem pollMiss : Statement .pollMiss := of_none rfl rfl

theorem fallHoldExpiry (zone : Nat) (gas : Gas) : Statement (.fallHoldExpiry zone gas) := of_one rfl rfl rfl

theorem driveFrameSent (line : DriveLine) : Statement (.driveFrameSent line) := of_none rfl rfl

theorem driveAnswer (line : DriveLine) (address : Nat) (result : DriveResult) : Statement (.driveAnswer line address result) :=
  of_none rfl rfl

theorem driveWindowExpiry (line : DriveLine) : Statement (.driveWindowExpiry line) := of_none rfl rfl

theorem stepDownTimerExpiry (group : Nat) : Statement (.stepDownTimerExpiry group) := of_one rfl rfl rfl

theorem retryTimerExpiry (group : Nat) : Statement (.retryTimerExpiry group) := of_one rfl rfl rfl

theorem fanGrantTaken (group : Nat) : Statement (.fanGrantTaken group) := of_one rfl rfl rfl

theorem stringGrantTaken (string : Nat) : Statement (.stringGrantTaken string) := of_one rfl rfl rfl

theorem fadeTimerExpiry (string : Nat) : Statement (.fadeTimerExpiry string) := of_one rfl rfl rfl

theorem lampFrameSent : Statement .lampFrameSent := of_none rfl rfl

theorem lampReply (address : Nat) (failed : List Nat) : Statement (.lampReply address failed) := of_none rfl rfl

theorem lampWindowExpiry : Statement .lampWindowExpiry := of_none rfl rfl

theorem stringRetryTimerExpiry (string : Nat) : Statement (.stringRetryTimerExpiry string) := of_one rfl rfl rfl

theorem hostReadCell (address : Address) (enables : ByteEnables) : Statement (.hostReadCell address enables) :=
  of_access rfl rfl rfl

theorem guardedWrite (address : Address) (data : Word) (enables : ByteEnables) : Statement (.guardedWrite address data enables) :=
  of_access rfl rfl rfl

theorem modeWrite (address : Address) (data : Word) (enables : ByteEnables) : Statement (.modeWrite address data enables) :=
  of_access rfl rfl rfl

theorem extraAirWrite (address : Address) (data : Word) (enables : ByteEnables) : Statement (.extraAirWrite address data enables) :=
  of_access rfl rfl rfl

theorem floorWrite (address : Address) (data : Word) (enables : ByteEnables) : Statement (.floorWrite address data enables) :=
  of_access rfl rfl rfl

theorem levelsWrite (address : Address) (data : Word) (enables : ByteEnables) : Statement (.levelsWrite address data enables) :=
  of_access rfl rfl rfl

theorem allFullWrite (address : Address) (data : Word) (enables : ByteEnables) : Statement (.allFullWrite address data enables) :=
  of_access rfl rfl rfl

theorem noticeReadIndexWrite (address : Address) (data : Word) (enables : ByteEnables) : Statement (.noticeReadIndexWrite address data enables) :=
  of_access rfl rfl rfl

theorem attentionThresholdWrite (address : Address) (data : Word) (enables : ByteEnables) : Statement (.attentionThresholdWrite address data enables) :=
  of_access rfl rfl rfl

theorem commandStart (address : Address) (data : Word) (enables : ByteEnables) : Statement (.commandStart address data enables) :=
  of_access rfl rfl rfl

theorem commandAbort (address : Address) (data : Word) (enables : ByteEnables) : Statement (.commandAbort address data enables) :=
  of_access rfl rfl rfl

theorem hostWritePass (address : Address) (data : Word) (enables : ByteEnables) : Statement (.hostWritePass address data enables) :=
  of_access rfl rfl rfl

theorem memoryAccessDone : Statement .memoryAccessDone := of_none rfl rfl

theorem injection : Statement .injection := of_none rfl rfl

theorem noticeWordWrite : Statement .noticeWordWrite := of_none rfl rfl

theorem listWordFetch : Statement .listWordFetch := of_none rfl rfl

theorem statusWrite : Statement .statusWrite := of_none rfl rfl

theorem listClosingWrite : Statement .listClosingWrite := of_none rfl rfl

theorem broadcastFrameDone (link : BroadcastLink) : Statement (.broadcastFrameDone link) := of_none rfl rfl

end Sys2Proof.Laws.EventOperands
end

