-- ==== Sys2Proof/Tests/Slice0.lean ====
section
/-! SUPPORT. The model's own tests: an ill-formed operand for each check of WellFormed, small events on a small garage, and
for every statement a state and operands that meet its hypotheses. -/

namespace Sys2Proof.Tests

set_option Elab.async false

open Sys2Proof Sys2Proof.Machine

/-! ## A small garage in SERVICE -/

def marks : Marks := ⟨50, 100, 150, 200, 40, 90, 140, 190⟩

def zoneConfig : ZoneConfig where
  quietTime := 60
  promiseLimit := 2
  spacing := 5
  promiseLifetime := 30
  coMarks := marks
  no2Marks := marks
  fallHold := 10
  blindStage := 2
  stageMap := Table.ofList 5 0 [1, 2, 3, 4, 6]

def groupConfig (address : Nat) (lines : List DriveLine) (served : List Nat) : GroupConfig where
  driveAddress := address
  lines := lines
  served := served
  power := Table.ofList 7 0 [0, 1, 2, 4, 7, 10, 14]
  baseActive := 1
  baseQuiet := 0
  baseAsleep := 0
  stepDown := 10

def stringConfig (address zone count : Nat) (reversed : Bool) : StringConfig where
  lampAddress := address
  zone := zone
  count := count
  reversed := reversed
  rating := 100
  safety := 4
  economy := 20
  boostLevel := 50
  boostTime := 10
  fadeRate := 8

def pointConfig (address : Nat) (policy : Policy) (chain : List ChainEntry) : PointConfig where
  signAddress := address
  inputB := some .charging
  policy := policy
  chain := chain
  weights := Table.replicate 32 (some 0)
  showTime := 4
  transitLifetime := 20
  transitLimit := 2
  enabled := true

/-- Two zones, three bays, a sensor in each zone, groups of one and of three lines, two strings with a copy rule, and two
decision points, the first leading on to the second. -/
def site : Plant where
  memorySize := 8192
  windows := [⟨256, 1, .general, 0⟩, ⟨512, 1, .zone, 0⟩, ⟨768, 1, .bay, 0⟩, ⟨1024, 1, .fan, 0⟩, ⟨1280, 1, .string, 0⟩,
    ⟨1536, 1, .point, 0⟩, ⟨1792, 1, .sensor, 0⟩, ⟨2048, 1, .notice, 0⟩]
  zones := [zoneConfig, zoneConfig]
  arriveDebounce := 2
  departDebounce := 3
  bays := [⟨0, .ordinary, 10, 110, some (0, 0)⟩, ⟨0, .charging, 11, 111, none⟩, ⟨1, .family, 12, 112, none⟩]
  sensors := [⟨0, 5⟩, ⟨1, 6⟩]
  groups := [groupConfig 20 [.a] [0], groupConfig 21 [.a, .b, .c] [0, 1]]
  strings := [stringConfig 40 0 8 false, stringConfig 41 1 4 true]
  copies := [⟨0, 0, 3, 1, 0⟩]
  points := [pointConfig 60 .ordered [⟨.zone 0, .left⟩, ⟨.point 1, .ahead⟩], pointConfig 61 .weighted [⟨.zone 1, .right⟩]]
  storeCap := 0

/-- The garage in SERVICE with every link idle and every bay unknown. -/
def garage : State :=
  { State.reset with
    loader := { Loader.reset with partState := .service }
    plant := site
    zones := Table.ofList 32 Zone.reset [{ Zone.reset with unknown := 2 }, { Zone.reset with unknown := 1 }] }

/-- The state after an event. -/
def after (c : Instr) (s : State) : State :=
  match exec c s with
  | .next t => t
  | _ => s

/-! ## Checks that imply the premises of the statements -/

theorem no_sign {s : State} (h : (List.range s.pointCount).all (fun d => !s.signEligible d) = true) :
    ∀ d, s.signEligible d = false := by
  intro d
  by_cases hd : d < s.pointCount
  · simpa using List.all_eq_true.1 h d (List.mem_range.2 hd)
  · simp [State.signEligible, hd]

theorem no_string {s : State} (h : (List.range s.stringCount).all (fun k => !s.stringEligible k) = true) :
    ∀ k, s.stringEligible k = false := by
  intro k
  by_cases hk : k < s.stringCount
  · simpa using List.all_eq_true.1 h k (List.mem_range.2 hk)
  · simp [State.stringEligible, hk]

/-- `Settled`, as a check. -/
def settledCheck (s : State) : Bool :=
  (List.range s.pointCount).all (fun d => (s.point d).state != .idle || (s.point d).face == .summary (s.summaryNumber d))
    && allLines.all (fun l => (s.line l).activity != .idle || (s.line l).queue == [])
    && (s.lampLink.frame.isSome || (List.range s.pointCount).all (fun d => !s.signEligible d)
        && (List.range s.stringCount).all fun k => !s.stringEligible k)
    && (s.bayLink.frame.isSome || (List.range s.bayCount).all fun b => !s.indicatorPending b)
    && (!s.notices.ringFull || s.notices.staging == [])
    && (decide (s.path.queue.length < 96) || s.path.drain)

/-- `Rested`, as a check. -/
def restedCheck (s : State) : Bool :=
  settledCheck s && (s.path.port != .free || s.path.hostWaiting == none && s.partClaim == none)

theorem settled {s : State} (h : settledCheck s = true) : s.Settled := by
  simp only [settledCheck, Bool.and_eq_true, Bool.or_eq_true] at h
  obtain ⟨⟨⟨⟨⟨points, lines⟩, lamp⟩, bays⟩, ring⟩, drain⟩ := h
  simp only [List.all_eq_true, List.mem_range, Bool.or_eq_true, bne_iff_ne, beq_iff_eq, Bool.not_eq_true',
    decide_eq_true_eq] at points lines bays ring drain
  refine ⟨fun d hd hi => ?_, fun _ l hi => ?_, fun _ hf => ?_, fun _ hf b hb => ?_, fun hr => ?_, fun hq => ?_⟩
  · exact (points d hd).resolve_left fun n => n hi
  · exact (lines l (by cases l <;> simp [allLines])).resolve_left fun n => n hi
  · rcases lamp with lamp | ⟨signs, strings⟩
    · rw [hf] at lamp
      cases lamp
    · exact ⟨no_sign signs, no_string strings⟩
  · rcases bays with bays | bays
    · rw [hf] at bays
      cases bays
    · exact bays b hb
  · rcases ring with ring | ring
    · rw [hr] at ring
      cases ring
    · exact ring
  · rcases drain with drain | drain
    · exact absurd hq (by simp [Config.drainMark]; omega)
    · exact drain

theorem rested {s : State} (h : restedCheck s = true) : s.Rested := by
  simp only [restedCheck, Bool.and_eq_true, Bool.or_eq_true, bne_iff_ne, beq_iff_eq] at h
  exact ⟨settled h.1, fun hp => h.2.resolve_left fun n => n hp⟩

theorem site_stands : site.standing = true := by decide +kernel

/-- `Configured` and `Derived` of a state in SERVICE, but for the checks on its configuration, as a check. -/
def soundCheck (s : State) : Bool :=
  (s.bays.rows.drop s.bayCount).all (fun r => r == Bay.reset) && s.holds.all (fun h => decide (h.bay < s.bayCount))
    && (List.range s.bayCount).all (fun b => (s.bay b).state == (s.bay b).derive (s.hold b).isSome
      && (!(s.bay b).occupied || s.hold b == none))
    && decide (s.holds.map (·.bay)).Nodup && s.holds.all (fun h => decide ((h.expiry - s.partTime).toNat ≤ 86400))
    && (List.range s.zoneCount).all (fun z => (s.zone z).access == s.deriveAccess z)
    && (List.range s.stringCount).all (fun k =>
        (s.lampString k).override == ((s.lampString k).evacuation || s.allFull != 0))

theorem sound {s : State} (p : s.plant.standing = true) (i : s.inService = true) (h : soundCheck s = true) :
    s.Configured ∧ s.Derived := by
  simp only [soundCheck, Bool.and_eq_true, List.all_eq_true, List.mem_range, Bool.or_eq_true, beq_iff_eq,
    Bool.not_eq_true', decide_eq_true_eq] at h
  obtain ⟨⟨⟨⟨⟨⟨far, holds⟩, near⟩, once⟩, timed⟩, access⟩, overrides⟩ := h
  have beyond : ∀ b, ¬ b < s.bayCount → s.bay b = Bay.reset := by
    intro b hb
    by_cases inside : b < s.bays.rows.length
    · have e : s.bay b = s.bays.rows[b] := by simp [State.bay, Table.getD, inside]
      rw [e]
      refine far _ (List.mem_iff_getElem.mpr ⟨b - s.bayCount, by simp; omega, ?_⟩)
      simp only [List.getElem_drop]
      congr 1
      omega
    · simp [State.bay, Table.getD, List.getElem?_eq_none (Nat.le_of_not_lt inside)]
  have unheld : ∀ b, ¬ b < s.bayCount → s.hold b = none := by
    refine fun b hb => List.find?_eq_none.mpr fun x hx e => hb ?_
    rw [← beq_iff_eq.mp e]
    exact holds x hx
  refine ⟨⟨?_, fun b hb => beyond b (by omega), holds⟩,
    ⟨fun b => ?_, fun b hb => ?_, once, timed, access, overrides⟩⟩
  · rwa [if_pos i]
  · by_cases hn : b < s.bayCount
    · exact (near b hn).1
    · rw [beyond b hn, unheld b hn]
      rfl
  · by_cases hn : b < s.bayCount
    · rcases (near b hn).2 with e | e
      · rw [hb] at e
        cases e
      · exact e
    · exact unheld b hn

/-- The premises that most statements share. -/
def Good (s : State) : Prop := s.Rested ∧ s.Configured ∧ s.Derived ∧ s.inService = true

theorem good {s : State} (r : restedCheck s = true) (d : soundCheck s = true) (p : s.plant.standing = true)
    (i : s.inService = true) : Good s := ⟨rested r, (sound p i d).1, (sound p i d).2, i⟩

theorem good_garage : Good garage := good (by decide +kernel) (by decide +kernel) site_stands rfl

/-- An event answers a next state, as a check. -/
def answersNext (c : Instr) (s : State) : Bool :=
  match exec c s with
  | .next _ => true
  | _ => false

theorem next_after {c : Instr} {s : State} (h : answersNext c s = true) : exec c s = .next (after c s) := by
  simp only [answersNext] at h
  unfold after
  split at h
  · next e => rw [e]
  · cases h

/-! ## WellFormed: an ill-formed operand for each check -/

theorem test_ill_formed_store_read_empty : Instr.wf (.storeReadDone []) = false := by decide
theorem test_ill_formed_hold_lapse : Instr.wf (.holdLapse 1024) = false := by decide
theorem test_ill_formed_promise_lapse : Instr.wf (.promiseLapse 256) = false := by decide
theorem test_ill_formed_boost_string : Instr.wf (.boostExpiry 48 0) = false := by decide
theorem test_ill_formed_boost_position : Instr.wf (.boostExpiry 0 64) = false := by decide
theorem test_ill_formed_bay_report : Instr.wf (.bayReport 4096 .empty false .change) = false := by decide
theorem test_ill_formed_debounce : Instr.wf (.debounceExpiry 1024) = false := by decide
theorem test_ill_formed_silence : Instr.wf (.silenceExpiry 1024) = false := by decide
theorem test_ill_formed_quiet : Instr.wf (.quietTimerExpiry 32) = false := by decide
theorem test_ill_formed_passage : Instr.wf (.passage 24 .a) = false := by decide
theorem test_ill_formed_show : Instr.wf (.showTimerExpiry 24) = false := by decide
theorem test_ill_formed_sign_retry : Instr.wf (.signRetryTimerExpiry 24) = false := by decide
theorem test_ill_formed_poll_reply : Instr.wf (.pollReply 256 0 0 false) = false := by decide
theorem test_ill_formed_fall_hold : Instr.wf (.fallHoldExpiry 32 .co) = false := by decide
theorem test_ill_formed_drive_answer : Instr.wf (.driveAnswer .a 248 .accept) = false := by decide
theorem test_ill_formed_step_down : Instr.wf (.stepDownTimerExpiry 16) = false := by decide
theorem test_ill_formed_retry : Instr.wf (.retryTimerExpiry 16) = false := by decide
theorem test_ill_formed_fan_grant : Instr.wf (.fanGrantTaken 16) = false := by decide
theorem test_ill_formed_string_grant : Instr.wf (.stringGrantTaken 48) = false := by decide
theorem test_ill_formed_fade : Instr.wf (.fadeTimerExpiry 48) = false := by decide
theorem test_ill_formed_lamp_reply_address : Instr.wf (.lampReply 4096 []) = false := by decide
theorem test_ill_formed_lamp_reply_places : Instr.wf (.lampReply 0 [0, 1, 2, 3, 4, 5, 6, 7, 8]) = false := by decide
theorem test_ill_formed_string_retry : Instr.wf (.stringRetryTimerExpiry 48) = false := by decide
theorem test_ill_formed_host_read : Instr.wf (.hostReadCell 0 0) = false := by decide
theorem test_ill_formed_guardedWrite : Instr.wf (.guardedWrite 0 0 0) = false := by decide
theorem test_ill_formed_modeWrite : Instr.wf (.modeWrite 0 0 0) = false := by decide
theorem test_ill_formed_extraAirWrite : Instr.wf (.extraAirWrite 0 0 0) = false := by decide
theorem test_ill_formed_floorWrite : Instr.wf (.floorWrite 0 0 0) = false := by decide
theorem test_ill_formed_levelsWrite : Instr.wf (.levelsWrite 0 0 0) = false := by decide
theorem test_ill_formed_allFullWrite : Instr.wf (.allFullWrite 0 0 0) = false := by decide
theorem test_ill_formed_noticeReadIndexWrite : Instr.wf (.noticeReadIndexWrite 0 0 0) = false := by decide
theorem test_ill_formed_attentionThresholdWrite : Instr.wf (.attentionThresholdWrite 0 0 0) = false := by decide
theorem test_ill_formed_commandStart : Instr.wf (.commandStart 0 0 0) = false := by decide
theorem test_ill_formed_commandAbort : Instr.wf (.commandAbort 0 0 0) = false := by decide
theorem test_ill_formed_hostWritePass : Instr.wf (.hostWritePass 0 0 0) = false := by decide

/-! ## The store: CRC and image (R177, R178) -/

/-- The bytes of little-endian words. -/
def bytesOf (words : List Nat) : List Byte :=
  words.flatMap fun w => (List.range 4).map fun i => byteOf (BitVec.ofNat 32 w) i

/-- The sections of a store with one zone and one bay. -/
def storeWords (cap : Nat) : List Nat :=
  [1, 40, 8192, 2, 0, 1, 0, 0, 256, 1, 7, 0]
    ++ [2, 112, 1, 600, 16, 2, 180, 30, 60, 100, 150, 20, 45, 80, 120, 10, 20, 30, 40, 5, 15, 25, 35, 60, 0, 0, 2, 4, 5, 6]
    ++ [3, 36, 1, 3, 5, 0, 0, 10, 110, 4294967295, 4294967295] ++ [4, 4, 0, 5, 4, 0, 6, 4, 0, 7, 4, 0, 8, 4, 0]
    ++ [9, 4, cap]

/-- A store image; the CRCs below were computed apart from the model. -/
def store (cap crc : Nat) : List Byte := bytesOf ([0x16344B50, 1, 284, crc] ++ storeWords cap)

/-- The part reading its store. -/
def loading : State :=
  { State.reset with loader := { Loader.reset with partState := .loading, storeReading := true } }

theorem test_crc_of_the_check_string :
    ~~~ ([0x31, 0x32, 0x33, 0x34, 0x35, 0x36, 0x37, 0x38, 0x39] : List Byte).foldl crcByte 0xFFFFFFFF = 0xCBF43926#32 := by
  decide +kernel

theorem test_store_image_is_accepted : (loadImage (imageBody (store 40 0x52ECA924))).isSome = true := by decide +kernel

/-! ## States of the small garage -/

/-- FALLBACK with a broadcast on every link. -/
def fallback : State :=
  { State.reset with
    loader := { Loader.reset with partState := .fallback, broadcastTimer := some ⟨0, .seconds 10⟩ }
    lines := ⟨⟨[], .broadcast 0 6, false⟩, ⟨[], .broadcast 0 6, true⟩, ⟨[], .idle, false⟩⟩
    lampLink := { LampLink.reset with frame := some (.broadcastString 0 (List.replicate 64 63)) }
    bayLink := { BayLink.reset with frame := some (.broadcast 0 ⟨.off, .steady⟩) } }

/-- A hold on bay 0, which is unknown. -/
def holding : State := { garage with holds := [⟨0, 61, false⟩], loader := { garage.loader with partTime := 0 } }

/-- A promise to zone 0 and one to decision point 1. -/
def promised : State := { garage with pool := [⟨.zone 0, .ordinary, 0⟩, ⟨.point 1, .ordinary, 0⟩] }

/-- Bay 0 with its record. -/
def withBay (r : Bay) : State := { garage with bays := garage.bays.set 0 r }

/-- Bay 0 free, with an arrival under debounce. -/
def arriving : State :=
  { withBay { Bay.reset with live := true, state := .free, silence := some ⟨0, .seconds 180⟩
                             debounce := some ⟨.arrive, ⟨0, .seconds 2⟩⟩ } with
    zones := Table.ofList 32 Zone.reset [{ Zone.reset with
      free := ⟨1, 0, 0, 0⟩, unknown := 1, access := .isOpen }, { Zone.reset with unknown := 1 }] }

/-- Bay 0 occupied, with a departure under debounce. -/
def departing : State :=
  { withBay { Bay.reset with live := true, occupied := true, state := .occupied
                             debounce := some ⟨.depart, ⟨0, .seconds 3⟩⟩ } with
    zones := Table.ofList 32 Zone.reset [{ Zone.reset with occupied := 1, unknown := 1 }, { Zone.reset with unknown := 1 }] }

/-- Zone 0 with a running quiet timer, in a mode. -/
def quietingIn (mode : ZoneMode) (access : Access) : State :=
  { garage with zones := garage.zones.set 0 { Zone.reset with
      unknown := 2, mode := mode, access := access, quiet := some ⟨0, .seconds 60⟩ } }

def quieting : State := quietingIn .auto .full

/-- The bay link sending bay 0's indicator, with some bays pending. -/
def indicatingWith (pending : List Bool) (last : Nat) : State :=
  { garage with bayLink :=
      { BayLink.reset with frame := some (.indicator 0 110 ⟨.off, .steady⟩), last := last
                           pending := Table.ofList 1024 false pending } }

def indicating : State := indicatingWith [true, false, true] 0

/-- Both decision points IDLE, zone 0 with one ordinary bay free and zone 1 with `n`. -/
def openWith (m n : Nat) : State :=
  { garage with
    zones := Table.ofList 32 Zone.reset [{ Zone.reset with
      free := ⟨m, 0, 0, 0⟩, access := if m = 0 then .full else .isOpen }, { Zone.reset with
      free := ⟨n, 0, 0, 0⟩, access := if n = 0 then .full else .isOpen }]
    points := Table.ofList 24 Point.reset [{ Point.reset with state := .idle, face := .summary (m + n) },
      { Point.reset with state := .idle, face := .summary n }]
    loader := { garage.loader with partTime := 0 } }

def open0 : State := openWith 1 0

/-- Zone 0 QUIET, with a bay free. -/
def drowsy : State := { open0 with zones := open0.zones.modify 0 fun r => { r with rest := .quiet } }

/-- Decision point 0 showing, its sign at fault. -/
def showing : State :=
  { garage with points := garage.points.set 0 { Point.reset with
      state := .showing, face := .full, showTimer := some ⟨0, .seconds 4⟩, health := .fault
      retryTimer := some ⟨0, .seconds 10⟩ } }

/-- Sensor 0 fresh with two misses behind it, in its answer window; zone 0 in clean air. -/
def sensing : State :=
  { garage with
    airLink := some ⟨0, true⟩
    sensors := garage.sensors.set 0 ⟨.fresh, 2, some 10, some 3, some 0, false⟩
    gas := garage.gas.set 0 { ZoneGas.reset with coValue := some 10, no2Value := some 3, blind := false } }

/-- Zone 0 at a CO stage, with its fall-hold timer running and a low value. -/
def fumingAt (stage : Nat) : State :=
  { garage with
    gas := garage.gas.set 0 { ZoneGas.reset with
      coValue := some 10, coStage := stage, coTimer := some ⟨0, .seconds 10⟩, blind := false }
    zones := garage.zones.set 0 { Zone.reset with unknown := 2, fume := stage } }

def fuming : State := fumingAt 2

/-- Group 1's command for stage 3: line C has answered as given, line B sends, and line A waits for its answer. -/
def drivingWith (b c : Option LineOutcome) (failures : Nat) (resend : Bool) : State :=
  { garage with
    groups := garage.groups.set 1 { Group.reset with
      t := 3, state := .inFlight, command := some ⟨3, ⟨none, b, c⟩⟩, failureCount := failures, resend := resend }
    lines := ⟨⟨[1, 0], .window 1, false⟩, ⟨[1], .sending 1 3, false⟩, LineRecord.reset⟩ }

def driving : State := drivingWith (some .positive) (some .silent) 0 false

/-- Group 0 at stage 4 above its target, its step-down timer out; group 1 waiting to retry. -/
def stepping : State :=
  { garage with
    groups := (garage.groups.set 0 { Group.reset with k := 4, t := 2, stepTimer := some ⟨0, .seconds 10⟩ }).set 1
      { Group.reset with state := .retryWait, retryTimer := some ⟨0, .seconds 10⟩ } }

/-- The Budget holds grants that group 0 and string 0 have yet to take. -/
def granted : State :=
  { garage with budget := { garage.budget with
      groups := garage.budget.groups.set 0 ⟨0, 5, 0, 10, 5⟩, strings := garage.budget.strings.set 0 ⟨0, 0, true⟩ } }

/-- String 0 fading up, with a boost at position 3 that is due. -/
def boosted : State :=
  { garage with strings := garage.strings.set 0 { LampString.reset with
      fadeTimer := some ⟨0, .fraction 8⟩
      luminaires := Table.ofList 64 Luminaire.reset [⟨none, 20, 20, 10⟩, ⟨none, 20, 5, 10⟩, ⟨none, 9, 9, 9⟩,
        ⟨some 0, 50, 50, 50⟩] } }

/-- The lamp link in the answer window of a frame to string 1, which has missed twice. -/
def lampWith (frame : LampFrame) : State :=
  { garage with
    lampLink := { LampLink.reset with frame := some frame, windowOpen := true }
    strings := garage.strings.set 1 { LampString.reset with misses := 2, retryTimer := some ⟨0, .seconds 10⟩ } }

def lamp : State := lampWith (.string 1 41 [0, 0, 0, 0])

/-- One unread notice of severity 2. -/
def ringing : State :=
  { garage with notices := { garage.notices with
      writeIndex := 1, severities := garage.notices.severities.set 0 (some 2), attn := true } }

/-- A runner at an entry at 3000, of which some words are read, and the next one granted. -/
def fetching (s : State) (words : List Word) (next : Word) : State :=
  { s with
    runner := { Runner.reset with phase := .fetching words, entryAddress := 3000 }
    path := { s.path with port := .granted .fetch }
    mem := Memory.writeWord [] (if words = [] then 3000 else 3001 + words.length) next 15 }

/-- The words of an entry: header, options, operands. -/
def entry (command : Nat) (options operands : List Nat) : List Word :=
  ((command + 256 * options.length + 65536 * operands.length) :: (options ++ operands)).map (BitVec.ofNat 32)

/-- A runner that is granted the last word of an entry. -/
def listed (s : State) (command : Nat) (options operands : List Nat) : State :=
  fetching s (entry command options operands).dropLast ((entry command options operands).getLastD 0)

/-- The status claim granted in a phase. -/
def ending (phase : Phase) : State :=
  { garage with
    runner := { Runner.reset with phase := phase, entryAddress := 3000 }
    path := { garage.path with port := .granted .status } }

/-- The injection claim granted, for two cells of zone 0. -/
def injecting : State :=
  { garage with path := { garage.path with port := .granted .injection, queue := [520, 521], dirty := [520, 521] } }

/-- The notice claim granted, for a word of the one staged record. -/
def noticing (word : Nat) : State :=
  { garage with
    notices := { garage.notices with staging := [⟨.guarded, 1, none, 256, 5⟩], nextWord := word }
    path := { garage.path with port := .granted .notice } }

/-! ## One small event of each kind -/

theorem test_reset_assert : (after .resetAssert garage).loader = Loader.reset := by decide +kernel
theorem test_reset_release : (after .resetRelease State.reset).loader = loading.loader := by decide +kernel
theorem test_store_read_timeout : (after .storeReadTimeout loading).notices.attn = true := by decide +kernel
theorem test_broadcast_timer_expiry : (after .broadcastTimerExpiry fallback).bayLink.newer = true := by decide +kernel
theorem test_broadcast_frame_done :
    (after (.broadcastFrameDone .lamp) fallback).lampLink.frame = some (.broadcastSign 0 .closed) := by
  decide +kernel
theorem test_hold_lapse :
    (after (.holdLapse 0) { holding with loader := { garage.loader with partTime := 61 } }).holds = [] := by
  decide +kernel
theorem test_promise_lapse :
    ((after (.promiseLapse 0) promised).zone 0).lapsed = 1 ∧
      (after (.promiseLapse 0) promised).pool = [⟨.point 1, .ordinary, 0⟩] := by
  decide +kernel
theorem test_boost_expiry : (after (.boostExpiry 0 3) boosted).boostOf 0 3 = none := by decide +kernel
theorem test_bay_report :
    ((after (.bayReport 10 .present false .change) garage).bay 0).state = .occupied := by
  decide +kernel
theorem test_bay_report_of_a_fault :
    ((after (.bayReport 10 .present true .alive) garage).bay 0).state = .outOfService := by
  decide +kernel
theorem test_debounce_expiry :
    ((after (.debounceExpiry 0) arriving).bay 0).state = .occupied ∧
      ((after (.debounceExpiry 0) arriving).zone 0).occupied = 1 := by
  decide +kernel
theorem test_silence_expiry : ((after (.silenceExpiry 0) arriving).bay 0).state = .unknown := by decide +kernel
theorem test_quiet_timer_expiry : ((after (.quietTimerExpiry 0) quieting).zone 0).rest = .quiet := by decide +kernel
theorem test_indicator_frame_done : (after .indicatorFrameDone indicating).bayLink.last = 2 := by decide +kernel
theorem test_passage :
    (after (.passage 0 .a) open0).pool = [⟨.zone 0, .ordinary, 30⟩] ∧
      ((after (.passage 0 .a) open0).point 0).face = .arrow .left 0 false (.zone 0) ∧
      ((after (.passage 0 .a) drowsy).zone 0).wake = .promise ∧
      ((after (.passage 0 .a) drowsy).zone 0).quiet = some ⟨0, .seconds 60⟩ := by
  decide +kernel
theorem test_passage_with_nothing_free :
    ((after (.passage 0 .a) showing).point 0).state = .fullShown := by
  decide +kernel
theorem test_sign_retry_timer_expiry :
    (after (.signRetryTimerExpiry 0) showing).lampLink.frame.isSome = true := by
  decide +kernel
theorem test_poll_sent :
    (after .pollSent { garage with airLink := some ⟨0, false⟩ }).airLink = some ⟨0, true⟩ := by
  decide +kernel
theorem test_poll_reply :
    ((after (.pollReply 5 160 3 false) { garage with airLink := some ⟨0, true⟩ }).zone 0).fume = 3 ∧
      (after (.pollReply 5 160 3 false) { garage with airLink := some ⟨0, true⟩ }).airLink = some ⟨1, false⟩ := by
  decide +kernel
theorem test_poll_miss :
    ((after .pollMiss sensing).zoneGas 0).blind = true ∧
      ((after .pollMiss sensing).zone 0).fume = 2 := by
  decide +kernel
theorem test_fall_hold_expiry : ((after (.fallHoldExpiry 0 .co) fuming).zone 0).fume = 1 := by decide +kernel
theorem test_drive_frame_sent :
    ((after (.driveFrameSent .b) driving).line .b).activity = .window 1 := by
  decide +kernel
theorem test_drive_answer : ((after (.driveAnswer .a 21 .accept) driving).group 1).k = 3 := by decide +kernel
theorem test_drive_answer_of_a_refusal :
    ((after (.driveAnswer .a 21 (.refuse 9)) driving).group 1).state = .retryWait := by
  decide +kernel
theorem test_drive_window_expiry :
    ((after (.driveWindowExpiry .a) driving).group 1).failedCommands = 1 := by
  decide +kernel
theorem test_step_down_timer_expiry :
    ((after (.stepDownTimerExpiry 0) stepping).group 0).command = some ⟨3, ⟨none, none, none⟩⟩ := by
  decide +kernel
theorem test_retry_timer_expiry :
    ((after (.retryTimerExpiry 1) stepping).group 1).state = .inFlight := by
  decide +kernel
theorem test_fan_grant_taken : ((after (.fanGrantTaken 0) granted).group 0).t = 5 := by decide +kernel
theorem test_string_grant_taken :
    ((after (.stringGrantTaken 0) granted).lampString 0).grant = true := by
  decide +kernel
theorem test_fade_timer_expiry :
    (((after (.fadeTimerExpiry 0) boosted).lampString 0).luminaires.getD 0 Luminaire.reset).output = 11 := by
  decide +kernel
theorem test_lamp_frame_sent :
    (after .lampFrameSent { lamp with lampLink := { lamp.lampLink with windowOpen := false } }).lampLink.windowOpen =
      true := by
  decide +kernel
theorem test_lamp_reply : ((after (.lampReply 41 [0, 9]) lamp).lampString 1).failed = [3] := by decide +kernel
theorem test_lamp_window_expiry :
    ((after .lampWindowExpiry lamp).lampString 1).link = .unreachable := by
  decide +kernel
theorem test_string_retry_timer_expiry :
    (after (.stringRetryTimerExpiry 1) { lamp with lampLink := { lamp.lampLink with frame := none } }).lampLink.frame =
      lamp.lampLink.frame.map fun _ => .string 1 41 [0, 0, 0, 0] := by
  decide +kernel
theorem test_host_read_cell :
    (after (.hostReadCell 4000 15) garage).path.hostAnswer = some ⟨4000, 0, false⟩ := by
  decide +kernel
theorem test_guarded_write :
    (after (.guardedWrite 256 7 1) garage).notices.guarded = 1 ∧
      (after (.guardedWrite 256 7 1) garage).mem = [] := by
  decide +kernel
theorem test_mode_write : ((after (.modeWrite 528 2 15) garage).zone 1).access = .dormant := by decide +kernel
theorem test_mode_write_rejected : (after (.modeWrite 528 3 15) garage).notices.rejected = 1 := by decide +kernel
theorem test_extra_air_write : ((after (.extraAirWrite 513 9 15) garage).zone 0).extraAir = 6 := by decide +kernel
theorem test_floor_write : ((after (.floorWrite 1032 5 15) garage).group 1).t = 5 := by decide +kernel
theorem test_levels_write :
    (((after (.levelsWrite 1280 0x7F0A0B0C 3) garage).lampString 1).levels.rows.take 3) = [12, 11, 0] := by
  decide +kernel
theorem test_all_full_write :
    ((after (.allFullWrite 268 2 15) garage).lampString 0).override = true := by
  decide +kernel
theorem test_notice_read_index_write :
    (after (.noticeReadIndexWrite 262 1 15) ringing).notices.attn = false := by
  decide +kernel
theorem test_attention_threshold_write :
    (after (.attentionThresholdWrite 263 2 15) ringing).notices.attn = true := by
  decide +kernel
theorem test_command_start :
    (after (.commandStart 258 3000 15) garage).runner.phase = .fetching [] := by
  decide +kernel
theorem test_command_start_refused_place :
    (after (.commandStart 258 100 15) garage).runner.result = .refusedPlace := by
  decide +kernel
theorem test_host_write_pass : (after (.hostWritePass 4000 0x0102 1) garage).mem = [(16000, 2)] := by decide +kernel
theorem test_memory_access_done :
    (after .memoryAccessDone { garage with path := { garage.path with port := .busy ⟨0, none, 15⟩ } }).path.port =
      .free := by
  decide +kernel
theorem test_injection :
    (after .injection injecting).mem = [(1040, 0), (1041, 0)].drop 2 ∧
      (after .injection injecting).path.queue = [521] := by
  decide +kernel
theorem test_notice_word_write :
    (after .noticeWordWrite (noticing 0)).mem = [(8192, 18), (8193, 1)] ∧
      (after .noticeWordWrite (noticing 0)).notices.nextWord = 1 := by
  decide +kernel
theorem test_notice_word_write_of_the_last :
    (after .noticeWordWrite (noticing 3)).notices.writeIndex = 1 ∧
      (after .noticeWordWrite (noticing 3)).notices.attn = true := by
  decide +kernel
theorem test_list_word_fetch : (after .listWordFetch (listed garage 13 [] [7])).budget.cap = 7 := by decide +kernel
theorem test_status_write :
    (after .statusWrite (ending (.statusDue ⟨some .range, false, false, false, 4⟩))).runner.result = .stopped := by
  decide +kernel
theorem test_list_closing_write :
    (after .listClosingWrite (ending (.closingDue .aborted 3005 3))).runner.result = .aborted := by
  decide +kernel

theorem test_store_read_done : (after (.storeReadDone [0x50]) loading).loader.storeBytes = [0x50] := by decide +kernel
theorem test_service_entry :
    ((Ev.start loading).enterService site).s.loader.partState = .service ∧
      (((Ev.start loading).enterService site).s.zone 0).fume = 2 := by
  decide +kernel
theorem test_show_timer_expiry : (((Ev.start showing).toIdle 0).s.point 0).face = .summary 0 := by decide +kernel

/-- A host write that waits behind an access on the port. -/
def waiting (address : Address) (data : Word) (phase : Phase) : State :=
  { garage with
    runner := { Runner.reset with phase := phase }
    path := { garage.path with port := .busy ⟨0, none, 15⟩, hostWaiting := some ⟨address, some data, 15, false⟩ } }

theorem test_command_abort : (after .memoryAccessDone (waiting 259 0 (.fetching []))).runner.abort = true := by
  decide +kernel

/-! ## Every statement's premises are met: a state and operands for each of its clauses

Premises that several statements share are `Good`; a conjunct names the clause's own premises, at a boundary of its range
where it has one. -/

/-- Every entry of the promise pool in use, for a zone that the search does not ask. -/
def fullPool : State := { open0 with pool := List.replicate 256 ⟨.zone 1, .ordinary, 0⟩ }

theorem good_holding : Good holding := good (by decide +kernel) (by decide +kernel) site_stands rfl
theorem good_promised : Good promised := good (by decide +kernel) (by decide +kernel) site_stands rfl
theorem good_arriving : Good arriving := good (by decide +kernel) (by decide +kernel) site_stands rfl
theorem good_departing : Good departing := good (by decide +kernel) (by decide +kernel) site_stands rfl
theorem good_quieting : Good quieting := good (by decide +kernel) (by decide +kernel) site_stands rfl
theorem good_dormant : Good (quietingIn .dormant .dormant) := good (by decide +kernel) (by decide +kernel) site_stands rfl
theorem good_indicating : Good indicating := good (by decide +kernel) (by decide +kernel) site_stands rfl
theorem good_open_zone : Good open0 := good (by decide +kernel) (by decide +kernel) site_stands rfl
theorem good_open_onward : Good (openWith 0 1) := good (by decide +kernel) (by decide +kernel) site_stands rfl
theorem good_showing : Good showing := good (by decide +kernel) (by decide +kernel) site_stands rfl
theorem good_sensing : Good sensing := good (by decide +kernel) (by decide +kernel) site_stands rfl
theorem good_fuming : Good fuming := good (by decide +kernel) (by decide +kernel) site_stands rfl
theorem good_fuming_last : Good (fumingAt 1) := good (by decide +kernel) (by decide +kernel) site_stands rfl
theorem good_driving : Good driving := good (by decide +kernel) (by decide +kernel) site_stands rfl
theorem good_driving_open : Good (drivingWith none (some .silent) 0 false) :=
  good (by decide +kernel) (by decide +kernel) site_stands rfl
theorem good_driving_third : Good (drivingWith (some .silent) (some (.negative 9)) 2 false) :=
  good (by decide +kernel) (by decide +kernel) site_stands rfl
theorem good_driving_resend : Good (drivingWith (some .silent) (some .silent) 255 true) :=
  good (by decide +kernel) (by decide +kernel) site_stands rfl
theorem good_stepping : Good stepping := good (by decide +kernel) (by decide +kernel) site_stands rfl
theorem good_granted : Good granted := good (by decide +kernel) (by decide +kernel) site_stands rfl
theorem good_boosted : Good boosted := good (by decide +kernel) (by decide +kernel) site_stands rfl
theorem good_lamp : Good lamp := good (by decide +kernel) (by decide +kernel) site_stands rfl
theorem good_lamp_sign : Good (lampWith (.sign 0 60 .blank)) := good (by decide +kernel) (by decide +kernel) site_stands rfl
theorem good_ringing : Good ringing := good (by decide +kernel) (by decide +kernel) site_stands rfl
theorem good_injecting : Good injecting := good (by decide +kernel) (by decide +kernel) site_stands rfl
theorem good_full_pool : Good fullPool := good (by decide +kernel) (by decide +kernel) site_stands rfl
theorem good_waiting : Good (waiting 259 0 (.fetching [])) := good (by decide +kernel) (by decide +kernel) site_stands rfl

/-- Bay 0 out of service by its sensor. -/
def sensorOut : State := withBay { Bay.reset with live := true, reasonSensor := true, state := .outOfService }

/-- Bay 0, unknown, with a hold that is due. -/
def dueHold : State := { garage with holds := [⟨0, 0, false⟩] }

/-- Bay 0 held, with an arrival under debounce. -/
def arrivingHeld : State :=
  { withBay { Bay.reset with live := true, state := .held, debounce := some ⟨.arrive, ⟨0, .seconds 2⟩⟩ } with
    holds := [⟨0, 600, false⟩] }

/-- Decision point 0 turning a car away. -/
def fullShown : State :=
  { garage with points := garage.points.set 0 { Point.reset with
      state := .fullShown, face := .full, showTimer := some ⟨0, .seconds 4⟩ } }

/-- The frame of a poll being sent, and its window open. -/
def polling : State := { garage with airLink := some ⟨1, false⟩ }
def polled : State := { garage with airLink := some ⟨1, true⟩ }

/-- A lamp frame being sent. -/
def lampSending : State := { lamp with lampLink := { lamp.lampLink with windowOpen := false } }

/-- A host read that waits behind an access on the port. -/
def reading : State :=
  { garage with path := { garage.path with port := .busy ⟨0, none, 15⟩, hostWaiting := some ⟨4000, none, 15, false⟩ } }

/-- The same while the queue is drained. -/
def drained : State :=
  { reading with path := { reading.path with queue := [520], dirty := [520], drain := true } }

/-- The injection that leaves 32 entries, all of them dirty, with one more cell to sweep. -/
def sweeping : State :=
  { garage with path := { garage.path with
      port := .granted .injection
      queue := (List.range 33).map (· + 512), dirty := (List.range 34).map (· + 512) } }

/-- The injection that leaves 35 entries, of which the first four have been cleaned. -/
def discarding : State :=
  { garage with path := { garage.path with
      port := .granted .injection
      queue := (List.range 36).map (· + 512), dirty := 512 :: (List.range 40).map (· + 517) } }

/-- A host read that waits, whose cell has become dirty. -/
def staling : State :=
  { garage with path := { garage.path with
      port := .busy ⟨0, none, 15⟩, hostWaiting := some ⟨520, none, 15, false⟩, queue := [520], dirty := [520] } }

/-- Bay 0 held, with 61 seconds left. -/
def nearing : State :=
  { withBay { Bay.reset with live := true, state := .held, indicator := ⟨.amber, .steady⟩ } with
    holds := [⟨0, 61, false⟩]
    zones := Table.ofList 32 Zone.reset [{ Zone.reset with held := 1, unknown := 1 }, { Zone.reset with unknown := 1 }] }

/-- Sensor 0 silent for 65,534 seconds. -/
def ageing : State := { sensing with loader := { sensing.loader with partTime := 65534 } }

theorem test_part_time_advance :
    (after .partTimeAdvance nearing).holds = [⟨0, 61, true⟩] ∧
      (after .partTimeAdvance nearing).bayLink.frame = some (.indicator 0 110 ⟨.amber, .fast⟩) := by
  decide +kernel
theorem test_age_stops :
    ((after .partTimeAdvance ageing).sensorAge 0 = 65535 ∧ ((after .partTimeAdvance ageing).sensor 0).ageStopped = true) ∧
      { ageing with
        loader := { ageing.loader with partTime := 3 }
        sensors := ageing.sensors.modify 0 fun r => { r with ageStopped := true } }.sensorAge 0 = 65535 := by
  decide +kernel
theorem test_clean_heads_and_sweep :
    ((after .injection discarding).path.queue = (List.range 40).map (· + 517) ∧
      (after .injection discarding).path.sweep = none) ∧
      (after .injection { sweeping with path := { sweeping.path with dirty := (List.range 200).map (· + 512) } }).path.sweep =
        some 768 := by
  decide +kernel
theorem test_waiting_access_at_its_grant :
    ((after .memoryAccessDone staling).path.hostAnswer = some ⟨520, staling.valueAt 520, true⟩ ∧
      (after .memoryAccessDone staling).path.port = .granted .injection) ∧
      (after .memoryAccessDone (waiting 528 2 (.fetching []))).path.hostRun = 1 ∧
      ((after .memoryAccessDone (waiting 528 2 (.fetching []))).zone 1).mode = .dormant := by
  decide +kernel

/-- A store image whose body is 16 zero bytes. -/
def shortStore (crc : Nat) : List Byte := bytesOf [0x16344B50, 1, 16, crc, 0, 0, 0, 0]

/-- The Budget under a cap, with claims of string 0 (10 protected, 20 beyond) and group 0 (stage 1 protected, 4 asked), and
the grants of a pass: the string, where granted, and the group's stage. -/
def budgeted (cap granted : Nat) (overCap grant : Bool) (stage : Nat) : State :=
  { garage with budget := { garage.budget with
      cap := cap, protectedPower := 11, grantedPower := granted, overCap := overCap
      strings := Table.ofList 48 ⟨0, 0, false⟩ [⟨10, 20, grant⟩, ⟨0, 0, !overCap⟩]
      groups := garage.budget.groups.set 0 ⟨1, 4, 1, 6, stage⟩ } }

/-- `GrantsStand` of a state of the small garage, as a check. -/
def grantsCheck (s : State) : Bool :=
  (s.budget.overCap == (s.budget.cap != 0 && decide (s.budget.cap < s.protectedSum)))
    && s.budget.protectedPower == s.protectedSum && s.budget.grantedPower == s.protectedSum + s.discretionaryGranted
    && (s.budget.cap != 0 || ((List.range 2).all (fun k => (s.stringClaim k).grant)
      && (List.range 2).all fun g => (s.groupClaim g).g == (s.groupClaim g).q))
    && (!s.budget.overCap || ((List.range 2).all (fun k => !(s.stringClaim k).grant)
      && (List.range 2).all fun g => (s.groupClaim g).g == min (s.groupClaim g).p (s.groupClaim g).q))
    && (s.budget.cap == 0 || s.budget.overCap || (List.range 2).all fun k => (s.stringClaim k).grant
      == decide (s.protectedSum + s.stringsGranted k + (s.stringClaim k).disc ≤ s.budget.cap))
    && (s.budget.cap == 0 || s.budget.overCap || (List.range 2).all fun g =>
      let c := s.groupClaim g
      let fits : Nat → Bool := fun stage => decide
        (s.protectedSum + s.stringsGranted s.stringCount + s.groupsGranted g + (s.power g stage - s.power g c.p)
          ≤ s.budget.cap)
      if c.q ≤ c.p then c.g == c.q
      else decide (c.p ≤ c.g) && decide (c.g ≤ c.q) && fits c.g
        && (List.range (c.q + 1)).all fun stage => !decide (c.g < stage) || !fits stage)

theorem grants {s : State} (p : s.plant = site) (h : grantsCheck s = true) : s.GrantsStand := by
  have two : s.stringCount = 2 := by rw [State.stringCount, p]; rfl
  have groups : s.groupCount = 2 := by rw [State.groupCount, p]; rfl
  simp only [grantsCheck, Bool.and_eq_true, Bool.or_eq_true, List.all_eq_true, List.mem_range, beq_iff_eq, bne_iff_ne,
    Bool.not_eq_true'] at h
  obtain ⟨⟨⟨⟨⟨⟨above, prot⟩, sum⟩, free⟩, exceeded⟩, strings⟩, stages⟩ := h
  refine ⟨?_, prot, sum, fun c => ?_, fun o => ?_, fun c o k hk => ?_, fun c o g hg => ?_⟩
  · rw [above]
    simp
  · have := free.resolve_left fun n => n c
    rw [two, groups]
    exact this
  · have := exceeded.resolve_left fun n => by rw [o] at n; cases n
    rw [two, groups]
    exact this
  · have := strings.resolve_left fun n => n.elim c fun n => by rw [o] at n; cases n
    rw [this k (two ▸ hk)]
    simp
  · have := (stages.resolve_left fun n => n.elim c fun n => by rw [o] at n; cases n) g (groups ▸ hg)
    by_cases le : (s.groupClaim g).q ≤ (s.groupClaim g).p
    · simp only [le, if_true] at this ⊢
      exact beq_iff_eq.1 this
    · simp only [le, if_false, Bool.and_eq_true, decide_eq_true_eq, List.all_eq_true, List.mem_range, Bool.or_eq_true,
        Bool.not_eq_true', decide_eq_false_iff_not] at this ⊢
      obtain ⟨⟨⟨low, high⟩, fits⟩, last⟩ := this
      exact ⟨low, high, fits, fun stage higher most => (last stage (by omega)).resolve_left fun n => n higher⟩

/-- `CountsAddUp` of a state of the small garage, as a check. -/
def countsCheck (s : State) : Bool :=
  (List.range 2).all fun z => allClasses.all (fun c => (s.zone z).free.get c == s.countBays z .free (some c))
    && (s.zone z).held == s.countBays z .held none && (s.zone z).occupied == s.countBays z .occupied none
    && (s.zone z).unknown == s.countBays z .unknown none && (s.zone z).outOfService == s.countBays z .outOfService none

theorem counts {s : State} (p : s.plant = site) (h : countsCheck s = true) : s.CountsAddUp := by
  intro z hz
  have hz : z < 2 := by rwa [State.zoneCount, p] at hz
  simp only [countsCheck, List.all_eq_true, List.mem_range, Bool.and_eq_true, beq_iff_eq] at h
  obtain ⟨⟨⟨⟨free, held⟩, occupied⟩, unknown⟩, out⟩ := h z hz
  exact ⟨fun c => free c (by cases c <;> simp [allClasses]), held, occupied, unknown, out⟩

theorem good_sensor_out : Good sensorOut := good (by decide +kernel) (by decide +kernel) site_stands rfl
theorem good_due_hold : Good dueHold := good (by decide +kernel) (by decide +kernel) site_stands rfl
theorem good_arriving_held : Good arrivingHeld := good (by decide +kernel) (by decide +kernel) site_stands rfl
theorem good_full_shown : Good fullShown := good (by decide +kernel) (by decide +kernel) site_stands rfl
theorem good_polling : Good polling := good (by decide +kernel) (by decide +kernel) site_stands rfl
theorem good_polled : Good polled := good (by decide +kernel) (by decide +kernel) site_stands rfl
theorem good_lamp_sending : Good lampSending := good (by decide +kernel) (by decide +kernel) site_stands rfl
theorem good_reading : Good reading := good (by decide +kernel) (by decide +kernel) site_stands rfl
theorem good_drained : Good drained := good (by decide +kernel) (by decide +kernel) site_stands rfl
theorem good_sweeping : Good sweeping := good (by decide +kernel) (by decide +kernel) site_stands rfl
theorem good_indicating_wrap : Good (indicatingWith [true] 2) := good (by decide +kernel) (by decide +kernel) site_stands rfl
theorem good_indicating_none : Good (indicatingWith [] 0) := good (by decide +kernel) (by decide +kernel) site_stands rfl
theorem good_lamp_first : Good (lampWith (.string 0 40 [])) :=
  good (by decide +kernel) (by decide +kernel) site_stands rfl
theorem good_waiting_alone : Good (waiting 4000 7 .idle) := good (by decide +kernel) (by decide +kernel) site_stands rfl
theorem good_discarding : Good discarding := good (by decide +kernel) (by decide +kernel) site_stands rfl
theorem good_staling : Good staling := good (by decide +kernel) (by decide +kernel) site_stands rfl
theorem good_nearing : Good nearing := good (by decide +kernel) (by decide +kernel) site_stands rfl
theorem good_drowsy : Good drowsy := good (by decide +kernel) (by decide +kernel) site_stands rfl
theorem good_waiting_mode : Good (waiting 528 2 (.fetching [])) := good (by decide +kernel) (by decide +kernel) site_stands rfl
theorem good_noticing : Good (noticing 2) := good (by decide +kernel) (by decide +kernel) site_stands rfl
theorem good_noticing_last : Good (noticing 3) := good (by decide +kernel) (by decide +kernel) site_stands rfl
theorem good_ending_end : Good (ending (.statusDue ⟨none, true, false, false, 2⟩)) :=
  good (by decide +kernel) (by decide +kernel) site_stands rfl
theorem good_ending_stop : Good (ending (.statusDue ⟨some .range, false, false, false, 4⟩)) :=
  good (by decide +kernel) (by decide +kernel) site_stands rfl
theorem good_ending_on : Good (ending (.statusDue ⟨none, false, false, false, 4⟩)) :=
  good (by decide +kernel) (by decide +kernel) site_stands rfl
theorem good_ending_closing : Good (ending (.closingDue .limit 3005 0x802)) :=
  good (by decide +kernel) (by decide +kernel) site_stands rfl

/-- The CRC over a list, its first `n` bytes taken first. -/
theorem crc_step {l : List Byte} {r r' : Word} (n : Nat) (h : (l.take n).foldl crcByte r = r') :
    l.foldl crcByte r = (l.drop n).foldl crcByte r' := by
  rw [← h, ← List.foldl_append, List.take_append_drop]

/-- The CRC of the store, taken in pieces. -/
theorem store_crc :
    ~~~ (imageBody (store 40 0x52ECA924)).foldl crcByte 0xFFFFFFFF = 0x52ECA924#32 := by
  rw [show imageBody (store 40 0x52ECA924) = bytesOf (storeWords 40) by decide +kernel]
  rw [crc_step 40 (r' := 0xAF4F9212) (by decide +kernel)]
  rw [crc_step 40 (r' := 0xDF879E2D) (by decide +kernel)]
  rw [crc_step 40 (r' := 0x205F8541) (by decide +kernel)]
  rw [crc_step 40 (r' := 0xA322A943) (by decide +kernel)]
  rw [crc_step 40 (r' := 0x044ED1F3) (by decide +kernel)]
  rw [crc_step 40 (r' := 0x776F6C0D) (by decide +kernel)]
  rw [crc_step 40 (r' := 0x8808A6F1) (by decide +kernel)]
  rw [crc_step 40 (r' := 0xAD1356DB) (by decide +kernel)]
  decide +kernel

/-- The store is accepted, and its CRC is the one in its header. -/
theorem witness_ServiceEntry :
    (loading.path.hostWaiting = none ∧ loading.loader.partState = .loading ∧ loading.loader.storeReading = true) ∧
      (headerOk (loading.loader.storeBytes ++ store 40 0x52ECA924) = true ∧
        imageWhole (loading.loader.storeBytes ++ store 40 0x52ECA924) = true) ∧
      ~~~ (imageBody (loading.loader.storeBytes ++ store 40 0x52ECA924)).foldl crcByte 0xFFFFFFFF
        = BitVec.ofNat 32 (headerWord (loading.loader.storeBytes ++ store 40 0x52ECA924) 3) ∧
      ∃ p, loadImage (imageBody (loading.loader.storeBytes ++ store 40 0x52ECA924)) = some p :=
  ⟨by decide +kernel, by decide +kernel,
    store_crc.trans (show 0x52ECA924#32 = BitVec.ofNat 32 (headerWord (store 40 0x52ECA924) 3) by decide +kernel),
    Option.isSome_iff_exists.mp test_store_image_is_accepted⟩

theorem witness_StepHandlesFrontEvent :
    garage.pending = [] :=
  by decide +kernel

theorem witness_QuietTimerRestsTheZone :
    Good quieting ∧
      (0 < quieting.zoneCount ∧ (quieting.zone 0).quiet.isSome = true) ∧
      Good (quietingIn .dormant .dormant) ∧
      ((quietingIn .dormant .dormant).zone 0).quiet.isSome = true :=
  ⟨good_quieting, by decide +kernel, good_dormant, by decide +kernel⟩

theorem witness_ReportChangesTheBay :
    Good garage ∧
      (garage.bayOfSensor 12 = some 2 ∧ (garage.bay 2).reasonSensor = false ∧ (garage.bay 2).live = false) ∧
      Good holding ∧
      ((holding.hold 0).isSome = true ∧ (holding.bay 0).live = false) ∧
      Good sensorOut ∧
      (sensorOut.bay 0).reasonSensor = true :=
  ⟨good_garage, by decide +kernel, good_holding, by decide +kernel, good_sensor_out, by decide +kernel⟩

theorem witness_BayTimersExpire :
    Good arriving ∧
      ((arriving.bay 0).debounce = some ⟨.arrive, ⟨0, .seconds 2⟩⟩ ∧ (arriving.bay 0).silence.isSome = true) ∧
      Good departing ∧
      (departing.bay 0).debounce = some ⟨.depart, ⟨0, .seconds 3⟩⟩ ∧
      Good dueHold ∧
      (dueHold.hold 0 = some ⟨0, 0, false⟩ ∧ dueHold.reached 0 = true) ∧
      Good arrivingHeld ∧
      (arrivingHeld.bay 0).debounce = some ⟨.arrive, ⟨0, .seconds 2⟩⟩ ∧ (arrivingHeld.hold 0).isSome = true :=
  ⟨good_arriving, by decide +kernel, good_departing, by decide +kernel, good_due_hold, by decide +kernel, good_arriving_held, by decide +kernel⟩

theorem witness_IndicatorFrameServesTheNext :
    Good indicating ∧
      (indicating.bayLink.sendsIndicator = true ∧ indicating.indicatorPending 2 = true ∧ indicating.bayLink.last < 2 ∧
      ∀ b, b < 2 → indicating.indicatorPending b = true → b ≤ indicating.bayLink.last) ∧
      Good (indicatingWith [true] 2) ∧
      ((indicatingWith [true] 2).indicatorPending 0 = true ∧
      ∀ b, b < (indicatingWith [true] 2).bayCount → (indicatingWith [true] 2).indicatorPending b = true → b ≤ 2) ∧
      Good (indicatingWith [] 0) ∧
      (indicatingWith [] 0).bayLink.sendsIndicator = true ∧
      ∀ b, b < (indicatingWith [] 0).bayCount → (indicatingWith [] 0).indicatorPending b = false :=
  ⟨good_indicating, by decide +kernel, good_indicating_wrap, by decide +kernel, good_indicating_none, by decide +kernel⟩

theorem witness_PassageWithoutTarget :
    Good garage ∧
      (garage.inputClass 1 .b = some .charging ∧ (garage.point 1).state = .disabled ∧ 1 < garage.pointCount) ∧
      Good showing ∧
      (showing.point 0).state ≠ .disabled ∧
      (choose { showing with pool := showing.consumed (.point 0) .ordinary } 0 .ordinary).found = none :=
  ⟨good_garage, by decide +kernel, good_showing, by decide +kernel⟩

theorem witness_PassageDirects :
    Good open0 ∧
      (choose { open0 with pool := open0.consumed (.point 0) .ordinary } 0 .ordinary).found =
      some (⟨.zone 0, .left⟩, 0, .ordinary) ∧
      Good (openWith 0 1) ∧
      (choose { openWith 0 1 with pool := (openWith 0 1).consumed (.point 0) .charging } 0 .charging).found =
      some (⟨.point 1, .ahead⟩, 0, .ordinary) ∧
      (choose { openWith 0 1 with pool := (openWith 0 1).consumed (.point 1) .ordinary } 1 .ordinary).found =
      some (⟨.zone 1, .right⟩, 1, .ordinary) ∧
      Good fullPool ∧
      ((fullPool.consumed (.point 0) .ordinary).length = 256 ∧
      (choose { fullPool with pool := fullPool.consumed (.point 0) .ordinary } 0 .ordinary).found =
        some (⟨.zone 0, .left⟩, 0, .ordinary)) ∧
      Good drowsy ∧
      (drowsy.zone 0).rest = .quiet ∧
      (choose { drowsy with pool := drowsy.consumed (.point 0) .ordinary } 0 .ordinary).found =
        some (⟨.zone 0, .left⟩, 0, .ordinary) :=
  ⟨good_open_zone, by decide +kernel, good_open_onward, by decide +kernel, by decide +kernel, good_full_pool,
    by decide +kernel, good_drowsy, by decide +kernel⟩

theorem witness_PromiseLapses :
    Good promised ∧
      promised.pool[0]? = some ⟨.zone 0, .ordinary, 0⟩ ∧ promised.pool[1]? = some ⟨.point 1, .ordinary, 0⟩ ∧
      promised.reached 0 = true ∧ 0 < promised.zoneCount :=
  ⟨good_promised, by decide +kernel⟩

theorem witness_SentFrameOpensItsWindow :
    Good polling ∧
      polling.airLink = some ⟨1, false⟩ ∧
      Good driving ∧
      (driving.line .b).activity = .sending 1 3 ∧
      Good lampSending ∧
      lampSending.lampLink.frame.isSome = true ∧ lampSending.lampLink.windowOpen = false :=
  ⟨good_polling, by decide +kernel, good_driving, by decide +kernel, good_lamp_sending, by decide +kernel⟩

theorem witness_ValidReplyIsTaken :
    Good sensing ∧
      sensing.airLink = some ⟨0, true⟩ ∧ 0 < sensing.sensorCount ∧ (sensing.sensorConfig 0).airAddress = 5 ∧
      (after (.pollReply 5 160 3 false) sensing).gasValue 0 .co = some 160 ∧
      (after (.pollReply 5 65535 65535 false) sensing).gasValue 0 .no2 = some 250 :=
  ⟨good_sensing, by decide +kernel⟩

theorem witness_LostSensorMayBlindTheZone :
    Good sensing ∧
      (sensing.airLink = some ⟨0, true⟩ ∧ 0 < sensing.sensorCount ∧ (sensing.sensor 0).health = .fresh ∧
      (sensing.sensor 0).misses = 2 ∧ (sensing.zoneGas 0).blind = false ∧ (after .pollMiss sensing).freshSensors 0 = []) ∧
      Good polled ∧
      polled.airLink = some ⟨1, true⟩ ∧ (polled.sensor 1).health = .stale ∧ (polled.sensor 1).misses = 3 :=
  ⟨good_sensing, by decide +kernel, good_polled, by decide +kernel⟩

theorem witness_FallHoldLowersTheStage :
    Good fuming ∧
      (((fuming.zoneGas 0).timer .co).isSome = true ∧ (fuming.zoneGas 0).stage .co = 2 ∧ 0 < fuming.zoneCount) ∧
      Good (fumingAt 1) ∧
      (((fumingAt 1).zoneGas 0).timer .co).isSome = true ∧ ((fumingAt 1).zone 0).fume = 1 ∧
      ((fumingAt 1).zone 0).rest = .active ∧ ((after (.fallHoldExpiry 0 .co) (fumingAt 1)).zone 0).fume = 0 :=
  ⟨good_fuming, by decide +kernel, good_fuming_last, by decide +kernel⟩

theorem witness_LineOutcomeIsRecorded :
    Good (drivingWith none (some .silent) 0 false) ∧
      1 < (drivingWith none (some .silent) 0 false).groupCount ∧
      ((drivingWith none (some .silent) 0 false).line .a).activity = .window 1 ∧
      ((drivingWith none (some .silent) 0 false).group 1).command = some ⟨3, ⟨none, none, some .silent⟩⟩ :=
  ⟨good_driving_open, by decide +kernel⟩

theorem witness_LineOutcomeIsRecorded_event :
    (drivingWith none (some .silent) 0 false).EndsIn .a 1 (.driveAnswer .a 21 .accept) .positive ∧
      (drivingWith none (some .silent) 0 false).EndsIn .a 1 (.driveAnswer .a 21 (.refuse 255)) (.negative 255) ∧
      (drivingWith none (some .silent) 0 false).EndsIn .a 1 (.driveWindowExpiry .a) .silent :=
  ⟨Or.inl ⟨rfl, rfl⟩, Or.inr (Or.inl ⟨255, rfl, rfl⟩), Or.inr (Or.inr ⟨rfl, rfl⟩)⟩

theorem witness_GoodCommandIsTaken :
    Good driving ∧
      (driving.line .a).activity = .window 1 ∧ (driving.group 1).command = some ⟨3, ⟨none, some .positive, some .silent⟩⟩ ∧
      (driving.groupConfig 1).lines.countP (fun m =>
        ((⟨none, some .positive, some .silent⟩ : PerLine (Option LineOutcome)).set .a (some .positive)).get m
          == some .positive) = 2 :=
  ⟨good_driving, by decide +kernel⟩

theorem witness_BadCommandIsRetried :
    Good (drivingWith (some .silent) (some (.negative 9)) 2 false) ∧
      (((drivingWith (some .silent) (some (.negative 9)) 2 false).line .a).activity = .window 1 ∧
      ((drivingWith (some .silent) (some (.negative 9)) 2 false).group 1).failureCount = 2) ∧
      Good (drivingWith (some .silent) (some .silent) 255 true) ∧
      ((drivingWith (some .silent) (some .silent) 255 true).group 1).resend = true ∧
      ((drivingWith (some .silent) (some .silent) 255 true).group 1).command = some ⟨3, ⟨none, some .silent, some .silent⟩⟩ :=
  ⟨good_driving_third, by decide +kernel, good_driving_resend, by decide +kernel⟩

theorem witness_DriveTimersIssueCommands :
    Good stepping ∧
      (stepping.group 0).stepTimer.isSome = true ∧ (stepping.group 1).waits = true ∧ 1 < stepping.groupCount :=
  ⟨good_stepping, by decide +kernel⟩

theorem witness_GrantsAreTaken :
    Good granted ∧
      (granted.groupClaim 0).g ≠ (granted.group 0).g ∧ (granted.stringClaim 0).grant ≠ (granted.lampString 0).grant :=
  ⟨good_granted, by decide +kernel⟩

theorem witness_LampReplyIsTaken :
    Good lamp ∧
      (lamp.lampLink.windowOpen = true ∧ lamp.lampLink.frame = some (.string 1 41 [0, 0, 0, 0]) ∧ 1 < lamp.stringCount) ∧
      Good (lampWith (.sign 0 60 .blank)) ∧
      (lampWith (.sign 0 60 .blank)).lampLink.frame = some (.sign 0 60 .blank) :=
  ⟨good_lamp, by decide +kernel, good_lamp_sign, by decide +kernel⟩

theorem test_lamp_failed_notice : (after (.lampReply 41 [0, 9]) lamp).notices.staging = [⟨.lampFailed, 1, some 1, 3, 0⟩] := by
  decide +kernel

theorem witness_LampMissIsCounted :
    Good lamp ∧
      (lamp.lampLink.windowOpen = true ∧ (lamp.lampString 1).misses = 2 ∧ (lamp.lampString 1).link = .reachable) ∧
      Good (lampWith (.string 0 40 [])) ∧
      (((lampWith (.string 0 40 [])).lampString 0).misses = 0 ∧ (lampWith (.string 0 40 [])).lampLink.windowOpen = true) ∧
      Good (lampWith (.sign 0 60 .blank)) ∧
      ((lampWith (.sign 0 60 .blank)).point 0).health = .ok ∧ ((lampWith (.sign 0 60 .blank)).point 0).misses = 0 :=
  ⟨good_lamp, by decide +kernel, good_lamp_first, by decide +kernel, good_lamp_sign, by decide +kernel⟩

theorem witness_HostAccessesAreServed :
    Good garage ∧
      (garage.path.hostWaiting = none ∧ garage.path.port = .free ∧ garage.classAt 4000 = none ∧
      garage.classAt 255 = none ∧ garage.classAt 274 = some .spare) ∧
      Good injecting ∧
      (520 ∈ injecting.path.dirty ∧ injecting.path.hostWaiting = none ∧ injecting.path.port ≠ .free) ∧
      Good (waiting 259 0 (.fetching [])) ∧
      (waiting 259 0 (.fetching [])).path.hostWaiting.isSome = true :=
  ⟨good_garage, by decide +kernel, good_injecting, by decide +kernel, good_waiting, by decide +kernel⟩

theorem witness_GuardedWriteIsSuppressed :
    Good garage ∧
      garage.classAt 256 = some .report ∧ garage.classAt 2048 = some .log ∧ garage.path.hostWaiting = none ∧
      State.accessOf (.guardedWrite 2048 7 1) = some ⟨2048, some 7, 1, false⟩ :=
  ⟨good_garage, by decide +kernel⟩

/-- A write to a demand cell is granted at once, from a check. -/
theorem demandReady {s : State} {a : Address} {d : Demand} {c : CellRef}
    (h : s.cellAt a.toNat = some c ∧ s.cellClass c = .demand d ∧ s.path.port = .free ∧ s.path.hostWaiting = none
      ∧ (s.partClaim = none ∨ (s.path.drain = false ∧ s.path.hostRun < 16))) : s.DemandReady a d c := h

/-- The port has come free with a claim of the part waiting, which the host has beaten 15 times. -/
def beaten : State :=
  { garage with runner := { Runner.reset with phase := .fetching [] }, path := { garage.path with hostRun := 15 } }

theorem sound_beaten : beaten.Settled ∧ beaten.Configured ∧ beaten.Derived :=
  ⟨settled (by decide +kernel), sound site_stands rfl (by decide +kernel)⟩

theorem witness_ModeIsCaptured :
    Good garage ∧ garage.DemandReady 528 .mode ⟨.zone, 1, 0⟩ ∧
      (garage.merged ⟨.zone, 1, 0⟩ 2 15).toNat = ZoneMode.dormant.code ∧
      (beaten.Settled ∧ beaten.Configured ∧ beaten.Derived) ∧ beaten.DemandReady 528 .mode ⟨.zone, 1, 0⟩ ∧
      beaten.partClaim = some .fetch ∧
      Good drowsy ∧ drowsy.DemandReady 512 .mode ⟨.zone, 0, 0⟩ ∧ (drowsy.zone 0).rest = .quiet :=
  ⟨good_garage, demandReady (by decide +kernel), by decide +kernel, sound_beaten, demandReady (by decide +kernel),
    by decide +kernel, good_drowsy, demandReady (by decide +kernel), by decide +kernel⟩

theorem witness_AirDemandsAreCaptured :
    Good garage ∧ garage.DemandReady 513 .extraAir ⟨.zone, 0, 1⟩ ∧ garage.DemandReady 1032 .floor ⟨.fan, 1, 0⟩ ∧
      beaten.DemandReady 513 .extraAir ⟨.zone, 0, 1⟩ :=
  ⟨good_garage, demandReady (by decide +kernel), demandReady (by decide +kernel), demandReady (by decide +kernel)⟩

theorem witness_LevelsAreCaptured :
    Good garage ∧ garage.DemandReady 1280 .levels ⟨.string, 0, 0⟩ ∧ garage.DemandReady 1295 .levels ⟨.string, 0, 15⟩ :=
  ⟨good_garage, demandReady (by decide +kernel), demandReady (by decide +kernel)⟩

theorem witness_AllFullIsCaptured :
    Good garage ∧ garage.DemandReady 268 .allFull ⟨.general, 0, 12⟩ ∧ (garage.lampString 1).override = false :=
  ⟨good_garage, demandReady (by decide +kernel), by decide +kernel⟩

theorem witness_NoticeDemandsAreCaptured :
    Good ringing ∧ ringing.DemandReady 262 .readIndex ⟨.general, 0, 6⟩ ∧
      (((ringing.merged ⟨.general, 0, 6⟩ 1 15).truncate 16 : BitVec 16) - ringing.notices.readIndex).toNat =
        (ringing.notices.writeIndex - ringing.notices.readIndex).toNat ∧
      ringing.DemandReady 263 .threshold ⟨.general, 0, 7⟩ :=
  ⟨good_ringing, demandReady (by decide +kernel), by decide +kernel, demandReady (by decide +kernel)⟩

theorem witness_BadDemandIsRejected :
    Good garage ∧ garage.DemandReady 528 .mode ⟨.zone, 1, 0⟩ ∧ (garage.merged ⟨.zone, 1, 0⟩ 3 15).toNat = 3 ∧
      Good ringing ∧ ringing.DemandReady 262 .readIndex ⟨.general, 0, 6⟩ ∧
      (((ringing.merged ⟨.general, 0, 6⟩ 2 15).truncate 16 : BitVec 16) - ringing.notices.readIndex).toNat = 2 :=
  ⟨good_garage, demandReady (by decide +kernel), by decide +kernel, good_ringing, demandReady (by decide +kernel),
    by decide +kernel⟩

theorem witness_TriggersReachTheRunner :
    Good garage ∧
      (garage.classAt 258 = some .start ∧ garage.classAt 259 = some .abort ∧ garage.runner.phase = .idle ∧
      garage.path.port = .free ∧ garage.path.hostWaiting = none ∧ garage.partClaim = none) ∧
      (Ev.spanBlocked garage 5054 = false ∧ Ev.spanBlocked garage 5055 = true ∧ Ev.spanBlocked garage 2303 = true ∧
      Ev.spanBlocked garage 2304 = false) ∧
      Good (waiting 259 0 (.fetching [])) ∧
      (waiting 259 0 (.fetching [])).path.port.isBusy = true ∧ (waiting 259 0 (.fetching [])).runner.phase ≠ .idle ∧
      (waiting 259 0 (.fetching [])).path.drain = false ∧ (waiting 259 0 (.fetching [])).path.hostRun = 0 :=
  ⟨good_garage, by decide +kernel, by decide +kernel, good_waiting, by decide +kernel⟩

theorem witness_PortIsGranted :
    Good (waiting 259 0 (.fetching [])) ∧
      (waiting 259 0 (.fetching [])).partClaim = some .fetch ∧
      Good (waiting 4000 7 .idle) ∧
      ((waiting 4000 7 .idle).partClaim = none ∧ (waiting 4000 7 .idle).classAt 4000 = none ∧
      (waiting 4000 7 .idle).path.port.isBusy = true) ∧
      Good drained ∧
      (drained.path.drain = true ∧ drained.partClaim = some .injection ∧ drained.path.hostWaiting.isSome = true) ∧
      Good reading ∧
      (reading.path.hostWaiting = some ⟨4000, none, 15, false⟩ ∧ 4000 ∉ reading.path.dirty ∧ reading.partClaim = none) ∧
      Good staling ∧
      (staling.path.hostWaiting = some ⟨520, none, 15, false⟩ ∧ 520 ∈ staling.path.dirty ∧
      staling.partClaim = some .injection ∧ staling.path.drain = false ∧ staling.path.hostRun = 0) ∧
      Good (waiting 528 2 (.fetching [])) ∧
      (waiting 528 2 (.fetching [])).classAt 528 = some (.demand .mode) ∧
      (waiting 528 2 (.fetching [])).partClaim = some .fetch :=
  ⟨good_waiting, by decide +kernel, good_waiting_alone, by decide +kernel, good_drained, by decide +kernel, good_reading,
    by decide +kernel, good_staling, by decide +kernel, good_waiting_mode, by decide +kernel⟩

theorem witness_InjectionWritesTheValue :
    Good injecting ∧
      (injecting.path.port = .granted .injection ∧ injecting.path.queue = [520, 521] ∧ 521 ∈ injecting.path.dirty) ∧
      Good sweeping ∧
      (sweeping.path.queue.tail.length = 32 ∧ 513 ∈ sweeping.path.dirty ∧ sweeping.path.queue.tail.head? = some 513) ∧
      Good discarding ∧
      discarding.path.port = .granted .injection ∧ discarding.path.queue = 512 :: discarding.path.queue.tail ∧
      discarding.path.queue.tail.length = 35 ∧ 513 ∉ discarding.path.dirty ∧
      (discarding.path.queue.tail.dropWhile fun b => !discarding.path.dirty.contains b).length = 31 :=
  ⟨good_injecting, by decide +kernel, good_sweeping, by decide +kernel, good_discarding, by decide +kernel⟩

theorem witness_NoticeWordsFillTheRing :
    Good (noticing 2) ∧
      ((noticing 2).addressOf ⟨.notice, 0, 2⟩ = some 2050 ∧ (noticing 2).path.port = .granted .notice) ∧
      Good (noticing 3) ∧
      (noticing 3).addressOf ⟨.notice, 0, 3⟩ = some 2051 ∧ (noticing 3).notices.staging ≠ [] :=
  ⟨good_noticing, by decide +kernel, good_noticing_last, by decide +kernel⟩

theorem witness_StatusDecidesTheList :
    Good (ending (.statusDue ⟨none, true, false, false, 2⟩)) ∧
      Good (ending (.statusDue ⟨some .range, false, false, false, 4⟩)) ∧
      Good (ending (.statusDue ⟨none, false, false, false, 4⟩)) ∧
      Good (ending (.closingDue .limit 3005 0x802)) ∧
      (ending (.closingDue .limit 3005 0x802)).path.port = .granted .status :=
  ⟨good_ending_end, good_ending_stop, good_ending_on, good_ending_closing, by decide +kernel⟩

theorem witness_EveryStepKeepsMemoryCanonical :
    Memory.wf [(4, 1), (9, 255)] = true :=
  by decide +kernel

theorem witness_WriteWordWritesEnabledBytes :
    Memory.wf ([] : Memory) = true :=
  by decide +kernel

theorem witness_FailedLoadGoesToFallback :
    loading.LinksIdle ∧
      headerOk (List.replicate 16 0) = false ∧
      (imageWhole (shortStore 0) = true ∧
      ~~~ (imageBody (shortStore 0)).foldl crcByte 0xFFFFFFFF ≠ BitVec.ofNat 32 (headerWord (shortStore 0) 3)) ∧
      imageWhole (shortStore 0xECBB4B55) = true ∧ headerOk (shortStore 0xECBB4B55) = true ∧
      ~~~ (imageBody (shortStore 0xECBB4B55)).foldl crcByte 0xFFFFFFFF
        = BitVec.ofNat 32 (headerWord (shortStore 0xECBB4B55) 3) ∧
      loadImage (imageBody (shortStore 0xECBB4B55)) = none :=
  ⟨⟨fun l => by cases l <;> rfl, rfl, rfl⟩, by decide +kernel, by decide +kernel, by decide +kernel⟩

theorem witness_EveryStepLeavesNothingUndone :
    garage.Rested ∧
      step { garage with pending := [] } = .next garage :=
  ⟨good_garage.1, rfl⟩

theorem witness_EveryStepKeepsTheBounds :
    injecting.QueueOk ∧
      holding.PoolsOk :=
  ⟨⟨by decide +kernel, by decide +kernel⟩, ⟨by decide +kernel, by decide +kernel, by decide +kernel⟩⟩

theorem witness_EveryStepKeepsTheConfiguration :
    garage.Configured ∧ garage.Derived ∧ garage.CountsAddUp ∧ arriving.CountsAddUp :=
  ⟨good_garage.2.1, good_garage.2.2.1, counts rfl (by decide +kernel), counts rfl (by decide +kernel)⟩

/-- Grants of a pass: with no cap, under a cap that the groups meet, under one that a string does not fit into, and under
one that the protected power exceeds. -/
theorem witness_EveryStepKeepsTheGrants :
    garage.Configured ∧ (budgeted 0 37 false true 4).GrantsStand ∧ (budgeted 34 34 false true 3).GrantsStand
      ∧ (budgeted 30 17 false false 4).GrantsStand ∧ (budgeted 10 11 true false 1).GrantsStand
      ∧ (budgeted 34 34 false true 3).CapRespected ∧ (budgeted 10 11 true false 1).CapRespected :=
  ⟨good_garage.2.1, grants rfl (by decide +kernel), grants rfl (by decide +kernel), grants rfl (by decide +kernel),
    grants rfl (by decide +kernel), fun _ => by decide +kernel, fun _ => by decide +kernel⟩

theorem witness_ResetReturnsEveryBlock :
    (garage.path.hostWaiting = none ∧ (waiting 4000 7 .idle).path.port.isBusy = true) ∧
      { garage.path with hostWaiting := some ⟨0, none, 15, false⟩, port := .granted .fetch }.port.isBusy = false :=
  ⟨by decide +kernel, by decide +kernel⟩

theorem witness_LoadBeginsAndGoesOn :
    State.reset.Rested ∧ garage.Rested ∧ loading.Rested ∧
      (loading.loader.partState = .loading ∧ loading.loader.storeReading = true ∧
      loading.loader.storeCrc = (imageBody loading.loader.storeBytes).foldl crcByte 0xFFFFFFFF) ∧
      ((store 40 0x52ECA924).take 15).length < 16 ∧
      headerOk ((store 40 0x52ECA924).take 16) = true ∧ imageWhole ((store 40 0x52ECA924).take 299) = false :=
  ⟨rested (by decide +kernel), good_garage.1, rested (by decide +kernel), by decide +kernel, by decide +kernel, by decide +kernel⟩

theorem witness_BroadcastsRepeat :
    fallback.Rested ∧
      (fallback.loader.partState = .fallback ∧ fallback.loader.broadcastTimer.isSome = true ∧
      (fallback.line .b).activity = .broadcast 0 6 ∧
      fallback.lampLink.frame = some (.broadcastString 0 (List.replicate 64 63)) ∧
      fallback.bayLink.frame = some (.broadcast 0 ⟨.off, .steady⟩)) ∧
      { fallback.lampLink with frame := some (.broadcastSign 0 .closed) }.frame = some (.broadcastSign 0 .closed) :=
  ⟨rested (by decide +kernel), by decide +kernel, rfl⟩

theorem unboosted (k p : Nat) : holding.boostOf k p = none := by
  simp [State.boostOf, State.lampString, holding, garage, State.reset, LampString.reset, Luminaire.reset]

/-- A state in which no lapse is due, and one for each kind of lapse. -/
theorem witness_PartTimeAdvances :
    Good holding ∧
      (holding.holds = [⟨0, 61, false⟩] ∧ holding.reached 61 = false ∧ holding.pool = []) ∧
      (∀ k p, holding.boostOf k p = none) ∧
      Good dueHold ∧
      (dueHold.holds = [⟨0, 0, false⟩] ∧ dueHold.reached 0 = true) ∧
      Good promised ∧
      (promised.pool.head? = some ⟨.zone 0, .ordinary, 0⟩ ∧ promised.reached 0 = true) ∧
      Good boosted ∧
      (boosted.boostOf 0 3 = some 0 ∧ boosted.reached 0 = true) ∧
      Good nearing ∧
      (nearing.holds = [⟨0, 61, false⟩] ∧ nearing.reached 61 = false ∧ nearing.pool = [] ∧ (nearing.bay 0).state = .held) ∧
      (∀ k p, nearing.boostOf k p = none) :=
  ⟨good_holding, by decide +kernel, fun k p => unboosted k p, good_due_hold, by decide +kernel, good_promised, by decide +kernel,
    good_boosted, by decide +kernel, good_nearing, by decide +kernel, fun k p => unboosted k p⟩

theorem witness_QuietReports :
    Good garage ∧
      garage.bayOfSensor 13 = none ∧
      Good arriving ∧
      arriving.bayOfSensor 10 = some 0 ∧ (arriving.bay 0).live = true ∧ (arriving.bay 0).reasonSensor = false :=
  ⟨good_garage, by decide +kernel, good_arriving, by decide +kernel⟩

theorem witness_OrderedSearchTakesTheFirst :
    (garage.pointConfig 0).policy = .ordered ∧ ((search open0 0 .ordinary []).1.map (·.1)) = some ⟨.zone 0, .left⟩
      ∧ (search garage 0 .ordinary []).1 = none ∧ (search garage 0 .charging []).1 = none :=
  by decide +kernel

/-- Zone 1 open to decision point 1, whose weights name its one entry at one phase only. -/
def weighed (phase pointer : Nat) : State :=
  { openWith 0 1 with
    plant := { site with points := site.points.set 1 { pointConfig 61 .weighted [⟨.zone 1, .right⟩] with
      weights := (Table.replicate 32 none).set phase (some 0) } }
    points := (openWith 0 1).points.modify 1 fun p => { p with pointer := pointer } }

/-- The first phase from the pointer, the last one round the 32, and none. -/
theorem witness_WeightedSearchTakesThePhase :
    ((weighed 31 31).pointConfig 1).policy = .weighted ∧
      (weighed 31 31).examine ⟨.zone 1, .right⟩ .ordinary = .eligible ∧
      (search (weighed 31 31) 1 .ordinary []).1 = some (⟨.zone 1, .right⟩, 0) ∧
      (search (weighed 4 5) 1 .ordinary []).1 = some (⟨.zone 1, .right⟩, 5) ∧
      (search garage 1 .ordinary []).1 = none :=
  by decide +kernel

theorem witness_PointAndLampTimersExpire :
    Good showing ∧
      ((showing.point 0).showTimer.isSome = true ∧ (showing.point 0).state = .showing ∧
      (showing.point 0).retryTimer.isSome = true) ∧
      Good fullShown ∧
      ((fullShown.point 0).showTimer.isSome = true ∧ (fullShown.point 0).state = .fullShown) ∧
      Good lamp ∧
      (lamp.lampString 1).retryTimer.isSome = true :=
  ⟨good_showing, by decide +kernel, good_full_shown, by decide +kernel, good_lamp, by decide +kernel⟩

/-- Zone 0 with a promise to it; its sensor is about to answer. -/
def closing : State := { sensing with pool := [⟨.zone 0, .ordinary, 30⟩] }

theorem good_closing : Good closing := good (by decide +kernel) (by decide +kernel) site_stands rfl

theorem witness_FumeClosureRecalls :
    Good closing ∧ exec (.pollReply 5 160 3 false) closing = .next (after (.pollReply 5 160 3 false) closing) ∧
      closing.ClosesForFume (after (.pollReply 5 160 3 false) closing) 0 ∧
      (after (.pollReply 5 160 3 false) closing).pool = [] :=
  ⟨good_closing, next_after (by decide +kernel), by unfold State.ClosesForFume; decide +kernel, by decide +kernel⟩

/-- The same zone with decision point 0 showing the way there: a recall returns it to IDLE. -/
theorem test_recall :
    (((Ev.start { closing with points := closing.points.set 0 { Point.reset with
      state := .showing, face := .arrow .left 0 false (.zone 0) } }).recallPromises 0).s.point 0).state = .idle := by
  decide +kernel

/-- The lamp link in the window of sign 0's frame, with signs and strings pending, and a sign run. -/
def turning (signs strings : List Bool) (run : Nat) : State :=
  { garage with lampLink := { LampLink.reset with
      frame := some (.sign 0 60 .blank), windowOpen := true, signRun := run
      signPending := Table.ofList 24 false signs, stringPending := Table.ofList 48 false strings } }

theorem witness_LampLinkChoosesInTurn :
    (turning [] [] 0).Rested ∧ (turning [] [] 0).inService = true ∧ ((turning [] [] 0).point 0).health = .ok ∧
      (∀ d, (turning [] [] 0).signEligible d = false) ∧ (∀ k, (turning [] [] 0).stringEligible k = false) ∧
      (turning [true, true] [] 0).Rested ∧
      NextInTurn 0 2 (turning [true, true] [] 0).signEligible 1 ∧
      (∀ k, (turning [true, true] [] 0).stringEligible k = false) ∧
      (turning [] [true] 2).Rested ∧
      (∀ d, (turning [] [true] 2).signEligible d = false) ∧ NextInTurn 0 2 (turning [] [true] 2).stringEligible 0 ∧
      (turning [true] [true, true] 3).Rested ∧
      NextInTurn 0 2 (turning [true] [true, true] 3).signEligible 0 ∧
      NextInTurn 0 2 (turning [true] [true, true] 3).stringEligible 1
        ∧ (turning [true] [true, true] 3).lampLink.signRun < 4 ∧
      (turning [true] [true, true] 4).Rested ∧
      NextInTurn 0 2 (turning [true] [true, true] 4).stringEligible 1 ∧
      4 ≤ (turning [true] [true, true] 4).lampLink.signRun :=
  ⟨rested (by decide +kernel), rfl, by decide +kernel, no_sign (by decide +kernel), no_string (by decide +kernel),
    rested (by decide +kernel), by unfold NextInTurn; decide +kernel, no_string (by decide +kernel),
    rested (by decide +kernel), no_sign (by decide +kernel), by unfold NextInTurn; decide +kernel,
    rested (by decide +kernel), by unfold NextInTurn; decide +kernel, by unfold NextInTurn; decide +kernel, by decide +kernel,
    rested (by decide +kernel), by unfold NextInTurn; decide +kernel, by decide +kernel⟩

theorem witness_FadesAndBoosts :
    Good boosted ∧
      (boosted.lampString 0).fadeTimer.isSome = true ∧ 0 < boosted.stringCount ∧
      boosted.boostOf 0 3 = some 0 ∧ boosted.reached 0 = true ∧ 3 < (boosted.stringConfig 0).count :=
  ⟨good_boosted, by decide +kernel⟩

/-! ## List entries -/

/-- What the command statements ask of an entry: a good state in which the runner is granted its last word, and legal
options. -/
def Commanded (s : State) (command : Nat) (options operands : List Nat) : Prop :=
  Good (listed s command options operands) ∧
    (listed s command options operands).LastWord (entry command options operands).dropLast command options operands ∧
    OptionsLegal command (options.map (· % 256))

/-- The premises of an entry on the garage, as a check. -/
def commandedCheck (s : State) (command : Nat) (options operands : List Nat) : Bool :=
  let t := listed s command options operands
  restedCheck t && soundCheck t
    && (match t.entryWords (entry command options operands).dropLast with
      | h :: body => h.toNat % 256 == command && h.toNat / 256 % 8 == options.length
          && h.toNat / 65536 % 64 == operands.length && body.map (·.toNat) == options ++ operands
      | [] => false)
    && decide (operands.length ≤ 40)
    && (options.map (· % 256)).all (optionMeaningful command) && decide (options.map (· % 256)).Nodup

theorem commanded {s : State} {command : Nat} {options operands : List Nat}
    (h : commandedCheck s command options operands = true) (p : s.plant.standing = true) (i : s.inService = true) :
    Commanded s command options operands := by
  simp only [commandedCheck, Bool.and_eq_true, decide_eq_true_eq] at h
  obtain ⟨⟨⟨⟨⟨r, d⟩, words⟩, short⟩, meaningful⟩, once⟩ := h
  refine ⟨good r d p i, ⟨rfl, rfl, ?_, short⟩, List.all_eq_true.1 meaningful, once⟩
  split at words
  · next head body e =>
    simp only [Bool.and_eq_true, beq_iff_eq] at words
    exact ⟨head, body, e, words.1.1.1, words.1.1.2, words.1.2, words.2⟩
  · cases words

theorem witness_EntryIsFetchedAndRun :
    Good (fetching garage [] 0x10003) ∧
      (0x10003 / 65536 % 64, 0x290001 / 65536 % 64) = (1, 41) ∧
      Good (listed garage 0 [] []) ∧ Good (listed garage 16 [1] []) ∧
      Good (listed garage 13 [2] [7]) ∧ optionMeaningful 13 2 = false ∧
      Good (listed garage 3 [1, 1] [0]) ∧ ¬ [1, 1].Nodup ∧
      Commanded garage 3 [1] [0, 0] ∧ fixedOperands 3 = some 1 ∧
      Commanded garage 1 [] [] ∧ Commanded garage 1 [4] [] :=
  ⟨good (by decide +kernel) (by decide +kernel) site_stands rfl, rfl,
    good (by decide +kernel) (by decide +kernel) site_stands rfl, good (by decide +kernel) (by decide +kernel) site_stands rfl,
    good (by decide +kernel) (by decide +kernel) site_stands rfl, rfl,
    good (by decide +kernel) (by decide +kernel) site_stands rfl, by decide, commanded (by decide +kernel) site_stands rfl, rfl,
    commanded (by decide +kernel) site_stands rfl, commanded (by decide +kernel) site_stands rfl⟩

/-- Bay 0 held for ten minutes. -/
def held : State :=
  { withBay { Bay.reset with live := true, state := .held } with holds := [⟨0, 600, false⟩] }

theorem witness_BayCommandsTakeEffect :
    (Commanded arriving 2 [] [0, 60] ∧ Commanded arriving 2 [3, 1] [0, 86400] ∧ (arriving.bay 0).state = .free) ∧
      (Commanded held 2 [3] [0, 60] ∧ (held.bay 0).state = .held) ∧
      (Commanded holding 3 [] [0] ∧ (holding.hold 0).isSome = true) ∧
      Commanded garage 4 [] [2, 0] ∧ Commanded garage 4 [1] [2, 1] ∧
      Commanded garage 5 [] [0, 3] ∧ garage.hold 0 = none ∧ BayClass.code .family = 3 :=
  ⟨⟨commanded (by decide +kernel) site_stands rfl, commanded (by decide +kernel) site_stands rfl, by decide +kernel⟩,
    ⟨commanded (by decide +kernel) site_stands rfl, by decide +kernel⟩,
    ⟨commanded (by decide +kernel) site_stands rfl, by decide +kernel⟩,
    commanded (by decide +kernel) site_stands rfl, commanded (by decide +kernel) site_stands rfl,
    commanded (by decide +kernel) site_stands rfl, by decide +kernel, rfl⟩

theorem witness_GuidanceAndAirCommandsTakeEffect :
    (Commanded promised 6 [] [0, 1, 30, 30] ∧ Commanded promised 6 [1] [0, 64, 0, 600] ∧ promised.zonePromises 0 = 1) ∧
      (Commanded garage 7 [] [1, 1, 0x30000] ∧ allSome chainEntryOf [0x30000] = some [⟨.zone 0, .ahead⟩] ∧
      chainOk 2 2 [⟨.zone 0, .ahead⟩] = true ∧
      hasCycle ((garage.plant.points.map (·.chain)).set 1 [⟨.zone 0, .ahead⟩]) = false) ∧
      (Commanded garage 8 [] (0 :: List.replicate 31 255 ++ [1]) ∧
      (allSome phaseOf (List.replicate 31 255 ++ [1])).isSome = true ∧ 1 < (garage.pointConfig 0).chain.length) ∧
      (Commanded showing 9 [] [0, 0] ∧ Commanded showing 9 [] [0, 1] ∧ (showing.point 0).state ≠ .disabled) ∧
      (Commanded garage 9 [1] [1, 1] ∧ Commanded garage 9 [] [1, 0] ∧ (garage.point 1).state = .disabled) ∧
      (Commanded sensing 10 [] [0, 0, 2, 3, 4, 1000, 1, 2, 3, 4] ∧ (sensing.zoneGas 0).blind = false) ∧
      Commanded garage 10 [] [1, 1, 2, 3, 4, 250, 1, 2, 3, 4] ∧ (garage.zoneGas 1).blind = true :=
  ⟨⟨commanded (by decide +kernel) site_stands rfl, commanded (by decide +kernel) site_stands rfl, by decide +kernel⟩,
    ⟨commanded (by decide +kernel) site_stands rfl, by decide +kernel⟩,
    ⟨commanded (by decide +kernel) site_stands rfl, by decide +kernel⟩,
    ⟨commanded (by decide +kernel) site_stands rfl, commanded (by decide +kernel) site_stands rfl, by decide +kernel⟩,
    ⟨commanded (by decide +kernel) site_stands rfl, commanded (by decide +kernel) site_stands rfl, by decide +kernel⟩,
    ⟨commanded (by decide +kernel) site_stands rfl, by decide +kernel⟩,
    commanded (by decide +kernel) site_stands rfl, by decide +kernel⟩

theorem witness_PlantCommandsTakeEffect :
    Commanded garage 11 [] [1, 0, 0, 6, 6, 6] ∧
      (Commanded garage 12 [] [16129] ∧ Commanded garage 12 [1, 0x3F0002] [16129, 0, 257]
        ∧ Commanded garage 12 [0x10002] [0]) ∧
      (Commanded garage 13 [] [0] ∧ Commanded garage 13 [] [65535]) ∧
      Commanded garage 14 [1] [] ∧ Commanded driving 15 [] [] ∧ (driving.group 1).state = .inFlight ∧
      (driving.group 0).state ≠ .inFlight :=
  ⟨commanded (by decide +kernel) site_stands rfl,
    ⟨commanded (by decide +kernel) site_stands rfl, commanded (by decide +kernel) site_stands rfl,
      commanded (by decide +kernel) site_stands rfl⟩,
    ⟨commanded (by decide +kernel) site_stands rfl, commanded (by decide +kernel) site_stands rfl⟩,
    commanded (by decide +kernel) site_stands rfl, commanded (by decide +kernel) site_stands rfl, by decide +kernel⟩

/-- SCENE with FADE: the last pair to name a string stands, and its fade rate is the option's. -/
theorem test_scene :
    (((after .listWordFetch (listed garage 12 [0x3F0002] [0x0501, 0x0900, 0x0701])).lampString 1).levels.rows.take 5)
        = [7, 7, 7, 7, 0] ∧
      ((after .listWordFetch (listed garage 12 [0x3F0002] [0x0501, 0x0900, 0x0701])).stringConfig 0).fadeRate = 63 := by
  decide +kernel

/-- A garage of 129 bays, of which all but the last have a hold. -/
def crowded : State :=
  { garage with
    plant := { site with bays := (List.range 129).map fun b => ⟨0, .ordinary, 10 + b, 1000 + b, none⟩ }
    bays := garage.bays.set 128 { Bay.reset with live := true, state := .free }
    holds := (List.range 128).map fun b => ⟨b, 600, false⟩
    zones := garage.zones.set 0 { Zone.reset with free := ⟨1, 0, 0, 0⟩, unknown := 128, access := .isOpen } }

theorem crowded_stands : crowded.plant.standing = true := by decide +kernel

/-- Refusals of the owners: the word that the runner reads is the entry's last, and the clause's check fails first. -/
theorem witness_RefusedEntryChangesNothing :
    (Good (listed garage 13 [] [65536]) ∧
      exec .listWordFetch (listed garage 13 [] [65536]) = .next (after .listWordFetch (listed garage 13 [] [65536])) ∧
      (after .listWordFetch (listed garage 13 [] [65536])).runner.phase = .statusDue ⟨some .range, false, false, false, 3⟩) ∧
      (Commanded garage 2 [] [3, 60] ∧ Commanded garage 2 [] [0, 59] ∧ Commanded garage 2 [] [0, 86401]) ∧
      (Commanded crowded 2 [] [128, 60] ∧ (crowded.bay 128).state = .free ∧ crowded.holds.length = 128) ∧
      (Commanded held 2 [1] [0, 60] ∧ (held.bay 0).state = .held) ∧
      (Commanded garage 2 [] [0, 60] ∧ (garage.bay 0).state = .unknown) ∧
      (Commanded garage 3 [] [3] ∧ Commanded garage 3 [] [2] ∧ garage.hold 2 = none) ∧
      (Commanded garage 4 [] [3, 0] ∧ Commanded garage 4 [] [0, 2]) ∧
      (Commanded garage 5 [] [3, 0] ∧ Commanded garage 5 [] [0, 4] ∧ Commanded held 5 [] [0, 3]
        ∧ (held.hold 0).isSome = true) ∧
      (Commanded garage 6 [] [0, 65, 0, 30] ∧ Commanded (openWith 1 0) 6 [] [2, 1, 0, 30] ∧
        Commanded { promised with pool := [⟨.zone 0, .ordinary, 0⟩, ⟨.zone 0, .family, 0⟩] } 6 [] [0, 1, 0, 30]) ∧
      (Commanded garage 7 [] [0] ∧ Commanded garage 7 [] [2, 0, 0] ∧ Commanded garage 7 [] [1, 0, 0x100 + 256 * 0] ∧
      hasCycle ((garage.plant.points.map (·.chain)).set 1 [⟨.point 0, .ahead⟩]) = true) ∧
      Commanded garage 8 [] (1 :: List.replicate 32 1) ∧
      (Commanded garage 9 [] [2, 0] ∧ Commanded garage 9 [] [0, 2]) ∧
      (Commanded garage 10 [] [0, 2, 2, 3, 4, 250, 1, 2, 3, 4] ∧ Commanded garage 10 [] [0, 1, 2, 3, 4, 251, 1, 2, 3, 4]) ∧
      Commanded garage 11 [] [0, 1, 0, 2, 3, 4] ∧
      (Commanded garage 12 [] [] ∧ Commanded garage 12 [] [0x4000] ∧ Commanded garage 12 [0x400002] [0]) :=
  ⟨⟨good (by decide +kernel) (by decide +kernel) site_stands rfl, next_after (by decide +kernel), by decide +kernel⟩,
    ⟨commanded (by decide +kernel) site_stands rfl, commanded (by decide +kernel) site_stands rfl,
      commanded (by decide +kernel) site_stands rfl⟩,
    ⟨commanded (by decide +kernel) crowded_stands rfl, by decide +kernel⟩,
    ⟨commanded (by decide +kernel) site_stands rfl, by decide +kernel⟩,
    ⟨commanded (by decide +kernel) site_stands rfl, by decide +kernel⟩,
    ⟨commanded (by decide +kernel) site_stands rfl, commanded (by decide +kernel) site_stands rfl, by decide +kernel⟩,
    ⟨commanded (by decide +kernel) site_stands rfl, commanded (by decide +kernel) site_stands rfl⟩,
    ⟨commanded (by decide +kernel) site_stands rfl, commanded (by decide +kernel) site_stands rfl,
      commanded (by decide +kernel) site_stands rfl, by decide +kernel⟩,
    ⟨commanded (by decide +kernel) site_stands rfl, commanded (by decide +kernel) site_stands rfl,
      commanded (by decide +kernel) site_stands rfl⟩,
    ⟨commanded (by decide +kernel) site_stands rfl, commanded (by decide +kernel) site_stands rfl,
      commanded (by decide +kernel) site_stands rfl, by decide +kernel⟩,
    commanded (by decide +kernel) site_stands rfl,
    ⟨commanded (by decide +kernel) site_stands rfl, commanded (by decide +kernel) site_stands rfl⟩,
    ⟨commanded (by decide +kernel) site_stands rfl, commanded (by decide +kernel) site_stands rfl⟩,
    commanded (by decide +kernel) site_stands rfl,
    commanded (by decide +kernel) site_stands rfl, commanded (by decide +kernel) site_stands rfl,
    commanded (by decide +kernel) site_stands rfl⟩

end Sys2Proof.Tests
end

section
/-! The ordered search (R49, R52, R55): what noting a paced zone does, the verdicts along a chain, and what the searches of
a passage make of them. -/

namespace Sys2Proof.Machine

/-! ## Zones found paced (R52) -/

@[simp] theorem mem_notePaced {entry : ChainEntry} {seen : List Nat} {z : Nat} :
    z ∈ notePaced entry seen ↔ z ∈ seen ∨ entry.target = .zone z := by
  unfold notePaced
  split
  next z' target =>
    rw [target, Target.zone.injEq]
    split
    · next noted =>
      have noted : z' ∈ seen := by simpa using noted
      exact ⟨.inl, fun h => h.elim id fun same => same ▸ noted⟩
    · simp [eq_comm]
  next target => simp [target]

theorem notePaced_nodup {seen : List Nat} (entry : ChainEntry) (distinct : seen.Nodup) :
    (notePaced entry seen).Nodup := by
  unfold notePaced
  split
  · split
    · exact distinct
    · next unseen => simpa using distinct.concat (by simpa using unseen)
  · exact distinct

/-! ## The walk of the chain (R55) -/

/-- R52, R55: a paced entry of the chain for zone `z` has no eligible entry before it. -/
def PacedBeforeEligible (s : State) (c : BayClass) (chain : List ChainEntry) (z : Nat) : Prop :=
  ∃ (i : Nat) (entry : ChainEntry), chain[i]? = some entry ∧ entry.target = .zone z ∧ s.examine entry c = .paced
    ∧ ∀ j, j < i → ∀ entry', chain[j]? = some entry' → s.examine entry' c ≠ .eligible

section
variable {s : State} {c : BayClass} {entry : ChainEntry} {rest : List ChainEntry} {z : Nat}

@[simp] theorem not_pacedBeforeEligible_nil : ¬ PacedBeforeEligible s c [] z := by
  rintro ⟨i, entry, there, -⟩
  simp at there

/-- A paced zone is the head's, or it is the tail's and the head did not end the search. -/
theorem pacedBeforeEligible_cons : PacedBeforeEligible s c (entry :: rest) z ↔
    (s.examine entry c = .paced ∧ entry.target = .zone z)
      ∨ (s.examine entry c ≠ .eligible ∧ PacedBeforeEligible s c rest z) := by
  constructor
  · rintro ⟨i, found, there, target, paced, before⟩
    cases i with
    | zero =>
      obtain rfl : entry = found := by simpa using there
      exact .inl ⟨paced, target⟩
    | succ i =>
      exact .inr ⟨before 0 i.succ_pos entry rfl, i, found, by simpa using there, target, paced,
        fun j hj entry' at_j => before (j + 1) (Nat.succ_lt_succ hj) entry' (by simpa using at_j)⟩
  · rintro (⟨paced, target⟩ | ⟨passed, i, found, there, target, paced, before⟩)
    · exact ⟨0, entry, rfl, target, paced, fun j hj => absurd hj j.not_lt_zero⟩
    · refine ⟨i + 1, found, by simpa using there, target, paced, fun j hj entry' at_j => ?_⟩
      cases j with
      | zero =>
        obtain rfl : entry = entry' := by simpa using at_j
        exact passed
      | succ j => exact before j (Nat.lt_of_succ_lt_succ hj) entry' (by simpa using at_j)

end

/-- The entry found is the first eligible one, whatever zones were noted before. -/
theorem searchOrdered_fst (s : State) (c : BayClass) (chain : List ChainEntry) (seen : List Nat) :
    (searchOrdered s c chain seen).1 = chain.find? fun entry => s.examine entry c == .eligible := by
  induction chain generalizing seen with
  | nil => rfl
  | cons entry rest ih => cases verdict : s.examine entry c <;> simp [searchOrdered, verdict, ih]

theorem mem_searchOrdered_snd {s : State} {c : BayClass} {chain : List ChainEntry} {seen : List Nat} {z : Nat} :
    z ∈ (searchOrdered s c chain seen).2 ↔ z ∈ seen ∨ PacedBeforeEligible s c chain z := by
  induction chain generalizing seen with
  | nil => simp [searchOrdered]
  | cons entry rest ih =>
    cases verdict : s.examine entry c <;> simp [searchOrdered, verdict, pacedBeforeEligible_cons, ih, or_assoc]

theorem searchOrdered_snd_nodup (s : State) (c : BayClass) (chain : List ChainEntry) {seen : List Nat}
    (distinct : seen.Nodup) : (searchOrdered s c chain seen).2.Nodup := by
  induction chain generalizing seen with
  | nil => exact distinct
  | cons entry rest ih =>
    cases verdict : s.examine entry c with
    | eligible => simpa [searchOrdered, verdict] using distinct
    | paced => simpa [searchOrdered, verdict] using ih (notePaced_nodup entry distinct)
    | no => simpa [searchOrdered, verdict] using ih distinct

/-! ## The searches of a passage (R49) and the pointer -/

/-- An ordered search is the walk of the chain; the pointer it hands on is the one that stands. -/
theorem search_of_ordered {s : State} {d : Nat} (c : BayClass) (seen : List Nat)
    (ordered : (s.pointConfig d).policy = .ordered) :
    search s d c seen =
      ((searchOrdered s c (s.pointConfig d).chain seen).1.map (fun entry => (entry, (s.point d).pointer)),
        (searchOrdered s c (s.pointConfig d).chain seen).2) := by
  simp [search, ordered]

theorem choose_of_found {s : State} {d : Nat} {c : BayClass} {entry : ChainEntry} {pointer : Nat}
    (found : (search s d c []).1 = some (entry, pointer)) :
    choose s d c = ⟨some (entry, pointer, c), (search s d c []).2⟩ := by
  simp [choose, found]

theorem choose_of_none {s : State} {d : Nat} {c : BayClass} (none_found : (search s d c []).1 = none) :
    choose s d c = if c = .ordinary then ⟨none, (search s d c []).2⟩
      else ⟨(search s d .ordinary (search s d c []).2).1.map fun x => (x.1, x.2, .ordinary),
        (search s d .ordinary (search s d c []).2).2⟩ := by
  simp [choose, none_found]

/-- R56 moves the pointer under policy WEIGHTED only. -/
theorem Ev.movePointer_of_ordered {e : Ev} {d : Nat} (pointer : Nat)
    (ordered : (e.s.pointConfig d).policy = .ordered) : e.movePointer d pointer = e := by
  simp [Ev.movePointer, ordered]

/-- Settles O23: the walk of the chain by induction along it, and the two searches of a passage from its case split. -/
theorem orderedSearchTakesTheFirst : Obligations.OrderedSearchTakesTheFirst := by
  intro s d c ordered
  refine ⟨fun seen => ?_, fun _ _ => choose_of_found, choose_of_none, ?_⟩
  · rw [search_of_ordered c seen ordered]
    exact ⟨by rw [searchOrdered_fst], searchOrdered_snd_nodup s c _, fun _ => mem_searchOrdered_snd⟩
  · rintro e pointer rfl
    exact Ev.movePointer_of_ordered pointer ordered

end Sys2Proof.Machine
end

section
/-! Guarded writes (R147): a host write to a report or log cell is taken at its arrival and posts its notice, whichever
event of the host port brings it; the port stays as it was, or goes to a claim of the part. -/

namespace Sys2Proof.Machine

/-! ## Host accesses that arrive (R142) -/

/-- Assumption 5: each of the twelve events of the host port is the arrival of the access it carries. -/
theorem exec_of_accessOf {event : Instr} {h : HostAccess} (access : State.accessOf event = some h) (s : State) :
    exec event s = hostArrives h s := by
  cases event <;> cases access <;> rfl

/-- What an event leaves depends on its part in the state that it meets alone. -/
theorem finish_congr {f g : Ev → Ev} {s : State} (same : f (Ev.start s) = g (Ev.start s)) : finish f s = finish g s := by
  unfold finish
  rw [same]

theorem hostArrives_of_taken {h : HostAccess} {s : State} (none_waits : s.path.hostWaiting = none)
    (taken : s.takenAtArrival h = true) : hostArrives h s = .next (finish (·.takeHost h) s) := by
  rw [hostArrives, occurIf_true _ s (by simp [none_waits]), finish_congr (g := (·.takeHost h)) (by simp [taken])]

/-! ## The arbiter and accesses on the port (R154) -/

/-- With no host access to take, the arbiter puts no access on the port: it grants it to a claim of the part at most. -/
theorem State.busy_of_arbitrate_busy {s : State} {x : PortAccess} (none_waits : s.path.hostWaiting = none)
    (busy : s.arbitrate.path.port = .busy x) : s.path.port = .busy x := by
  by_cases free : s.path.port = .free
  · simp only [arbitrate, arbitratePart, free, if_true, none_waits] at busy
    cases claim : s.partClaim with
    | none => simp [claim, free] at busy
    | some c => simp [claim, grantPart] at busy
  · simpa [arbitrate, free] using busy

theorem busy_of_finish_busy {f : Ev → Ev} {s : State} {x : PortAccess} (none_waits : s.path.hostWaiting = none)
    (path : (f (Ev.start s)).s.path = s.path) (busy : (finish f s).path.port = .busy x) : s.path.port = .busy x := by
  unfold finish at busy
  rw [← path, ← Ev.commit_port]
  exact State.busy_of_arbitrate_busy (by rw [Ev.commit_hostWaiting, path, none_waits]) busy

/-! ## Events that post notices and hand in nothing (R155) -/

namespace Ev

/-- A notice posted changes the notices alone. -/
theorem post_s (e : Ev) (kind : NoticeKind) (severity : Nat) (object : Option Nat) (detail : Word) :
    (e.post kind severity object detail).s =
      { e.s with notices := (e.post kind severity object detail).s.notices } := by
  unfold post
  split <;> rfl

theorem Quiet.post {e : Ev} (quiet : e.Quiet) (kind : NoticeKind) (severity : Nat) (object : Option Nat)
    (detail : Word) : (e.post kind severity object detail).Quiet := by
  unfold Ev.post
  split
  · exact ⟨quiet.strings, quiet.groups, quiet.pass⟩
  · exact ⟨quiet.strings, quiet.groups, quiet.pass⟩

theorem start_quiet (s : State) : (start s).Quiet := ⟨rfl, rfl, rfl⟩

end Ev

/-- A settled state with other notices has no summary and no link to serve. -/
theorem EndOf.still_of_notices {e : Ev} {s t : State} (h : EndOf e t) (quiet : e.Quiet) (settled : s.Settled)
    {n : Notices} (only : e.s = { s with notices := n }) : t = { s with notices := t.notices, path := t.path } := by
  have still := h.still quiet
    (by rw [only]; exact settled.summaries.congr rfl rfl rfl rfl) (by rw [only]; exact settled.lines.congr rfl rfl)
    (by rw [only]; exact settled.lamp.congr rfl rfl rfl rfl) (by rw [only]; exact settled.bayLink.congr rfl rfl rfl)
  rw [only] at still
  exact still

/-! ## A guarded write (R147) -/

/-- R144, R147: the cell at the address is a REPORT or a LOG cell. -/
def State.GuardedAt (s : State) (a : Nat) : Prop := s.classAt a = some .report ∨ s.classAt a = some .log

theorem State.GuardedAt.takenAtArrival {s : State} {a : Address} (guarded : s.GuardedAt a.toNat) (data : Word)
    (en : ByteEnables) : s.takenAtArrival ⟨a, some data, en, false⟩ = true := by
  simpa [State.takenAtArrival, State.GuardedAt] using guarded

namespace Ev

/-- Whatever the word and its byte enables, a write to a REPORT or a LOG cell is a guarded write. -/
theorem takeHost_of_guarded {e : Ev} {a : Address} (guarded : e.s.GuardedAt a.toNat) (data : Word) (en : ByteEnables) :
    e.takeHost ⟨a, some data, en, false⟩ = e.guardWrite a := by
  rw [takeHost_byClass]
  unfold State.GuardedAt State.classAt at guarded
  cases cell : e.s.cellAt a.toNat with
  | none => simp [cell] at guarded
  | some c =>
    rw [cell] at guarded
    rcases guarded with report | log
    · have cls : e.s.cellClass c = .report := Option.some.inj report
      simp [takeByClass, cell, cls]
    · have cls : e.s.cellClass c = .log := Option.some.inj log
      simp [takeByClass, cell, cls]

theorem guardWrite_notices (e : Ev) (a : Address) : (e.guardWrite a).s.notices =
    { e.s.notices with guarded := e.s.notices.guarded + 1 }.stage ⟨.guarded, 1, none, a.zeroExtend 32, e.s.partTime⟩ :=
  post_notices ..

/-- GUARD COUNT's cell is marked. -/
theorem guardWrite_marks (e : Ev) (a : Address) : (⟨.general, 0, 9⟩ : CellRef) ∈ (e.guardWrite a).marks :=
  post_marks _ _ _ _ _ (List.mem_cons_self ..)

/-- R147: memory and the port are left as they are, with all but the notices. -/
theorem guardWrite_s (e : Ev) (a : Address) :
    (e.guardWrite a).s = { e.s with notices := (e.guardWrite a).s.notices } := by
  unfold guardWrite
  rw [post_s]
  rfl

theorem Quiet.guardWrite {e : Ev} (quiet : e.Quiet) (a : Address) : (e.guardWrite a).Quiet :=
  have counted : ((e.modifyNotices fun n => { n with guarded := n.guarded + 1 }).markGeneral 9).Quiet :=
    ⟨quiet.strings, quiet.groups, quiet.pass⟩
  counted.post ..

end Ev

/-- Settles O44: the event is the arrival of a guarded write, whose part changes the notices alone. -/
theorem guardedWriteIsSuppressed : Obligations.GuardedWriteIsSuppressed := by
  intro event a data en s rested access none_waits guarded
  have path : ((Ev.start s).guardWrite a).s.path = s.path := Ev.bus_path (Ev.guardWrite_bus (Ev.start s) a)
  have quiet := (Ev.start_quiet s).guardWrite a
  have ended : EndOf ((Ev.start s).guardWrite a) (finish (·.guardWrite a) s) :=
    finish_end_bus rested.port (Ev.guardWrite_bus (Ev.start s) a)
  refine ⟨finish (·.guardWrite a) s, ?_, ?_, ended.marked (Ev.guardWrite_marks _ a),
    ended.still_of_notices quiet rested.toSettled (Ev.guardWrite_s (Ev.start s) a), ended.samePath path,
    fun _ => busy_of_finish_busy none_waits path⟩
  · rw [exec_of_accessOf access, hostArrives_of_taken none_waits (State.GuardedAt.takenAtArrival guarded data en)]
    exact congrArg _ (finish_congr (Ev.takeHost_of_guarded (e := Ev.start s) guarded data en))
  · exact ended.posting (s := { s with notices := { s.notices with guarded := s.notices.guarded + 1 } })
      (by rw [quiet.settle]; exact Ev.guardWrite_notices (Ev.start s) a)

end Sys2Proof.Machine
end
